-- ==== Sys2Proof/Word.lean ====
section
/-! DEFINITION. The widths of the words that cross the ports of `fixed_point_scalar_unit`
(00_scope.md section 4, 30_encoding.md R50, R51). Nothing here computes. -/

namespace Sys2Proof

/-- A raw value, an operand word or a result word: 64 bits, bit 63 the sign (R2, R33). -/
abbrev Word := BitVec 64

/-- An operation code, `cmd_op` (`OP_BITS = 8`, R19, R50). -/
abbrev OpCode := BitVec 8

/-- An error code, `rsp_err` (R19, R241). -/
abbrev ErrCode := BitVec 2

/-- A command word: the operation code, the first and the second operand, from bit 135 down
(`CMD_BITS = 136`, R50). -/
abbrev CommandWord := BitVec 136

/-- A response word: the error code above the result (`RSP_BITS = 66`, R51). -/
abbrev ResponseWord := BitVec 66

end Sys2Proof
end

