-- ==== Sys2Proof/Syntax.lean ====
section
/-! DEFINITION. The command set: one constructor per row of spec/opcode_table.json (30_encoding.md
R55). Every command word has the one format `{op, a, b}` (R50), so every constructor carries both
64-bit operand fields, the ignored ones too (R57): a command word and an `Instr` then hold the same
bits. -/

namespace Sys2Proof

/-- A command of the FPSU-Q32.32 command set, version 1 (R1, R55). `a` is the first operand field,
`b` the second. -/
inductive Instr where
  /-- FROMRAW, op `0x00`: `a` INT (raw), `b` ignored (R70). -/
  | fromraw (a b : Word)
  /-- FROMINT, op `0x01`: `a` INT, `b` ignored (R90). -/
  | fromint (a b : Word)
  /-- TOINT, op `0x02`: `a` FIX, `b` ignored (R91). -/
  | toint (a b : Word)
  /-- FROMF64, op `0x03`: `a` F64, `b` ignored (R92). -/
  | fromf64 (a b : Word)
  /-- TOF64, op `0x04`: `a` FIX, `b` ignored (R93). -/
  | tof64 (a b : Word)
  /-- CZERO, op `0x10`: `a` ignored, `b` ignored (R71). -/
  | czero (a b : Word)
  /-- CONE, op `0x11`: `a` ignored, `b` ignored (R72). -/
  | cone (a b : Word)
  /-- CMIN, op `0x12`: `a` ignored, `b` ignored (R73). -/
  | cmin (a b : Word)
  /-- CMAX, op `0x13`: `a` ignored, `b` ignored (R74). -/
  | cmax (a b : Word)
  /-- CPI, op `0x14`: `a` ignored, `b` ignored (R75). -/
  | cpi (a b : Word)
  /-- CPIO2, op `0x15`: `a` ignored, `b` ignored (R76). -/
  | cpio2 (a b : Word)
  /-- CPI2, op `0x16`: `a` ignored, `b` ignored (R77). -/
  | cpi2 (a b : Word)
  /-- CPREC, op `0x17`: `a` ignored, `b` ignored (R78). -/
  | cprec (a b : Word)
  /-- ADD, op `0x20`: `a` FIX, `b` FIX (R110). -/
  | add (a b : Word)
  /-- SUB, op `0x21`: `a` FIX, `b` FIX (R111). -/
  | sub (a b : Word)
  /-- MUL, op `0x22`: `a` FIX, `b` FIX (R112). -/
  | mul (a b : Word)
  /-- DIV, op `0x23`: `a` FIX dividend, `b` FIX divisor (R113). -/
  | div (a b : Word)
  /-- MOD, op `0x24`: `a` FIX dividend, `b` FIX divisor (R114). -/
  | mod (a b : Word)
  /-- NEG, op `0x25`: `a` FIX, `b` ignored (R115). -/
  | neg (a b : Word)
  /-- CMP, op `0x26`: `a` FIX, `b` FIX (R116). -/
  | cmp (a b : Word)
  /-- EQ, op `0x27`: `a` FIX, `b` FIX (R117). -/
  | eq (a b : Word)
  /-- SIGN, op `0x30`: `a` FIX, `b` ignored (R140). -/
  | sign (a b : Word)
  /-- ABS, op `0x31`: `a` FIX, `b` ignored (R141). -/
  | abs (a b : Word)
  /-- FASTABS, op `0x32`: `a` FIX, `b` ignored (R142). -/
  | fastabs (a b : Word)
  /-- FLOOR, op `0x33`: `a` FIX, `b` ignored (R143). -/
  | floor (a b : Word)
  /-- CEIL, op `0x34`: `a` FIX, `b` ignored (R144). -/
  | ceil (a b : Word)
  /-- ROUND, op `0x35`: `a` FIX, `b` ignored (R145). -/
  | round (a b : Word)
  /-- SQRT, op `0x40`: `a` FIX, `b` ignored (R160). -/
  | sqrt (a b : Word)
  /-- LOG2, op `0x41`: `a` FIX, `b` ignored (R163). -/
  | log2 (a b : Word)
  /-- LN, op `0x42`: `a` FIX, `b` ignored (R165). -/
  | ln (a b : Word)
  /-- POW2, op `0x43`: `a` FIX, `b` ignored (R167). -/
  | pow2 (a b : Word)
  /-- POW, op `0x44`: `a` FIX base, `b` FIX exponent (R170). -/
  | pow (a b : Word)
  /-- SIN, op `0x50`: `a` FIX radians, `b` ignored (R197). -/
  | sin (a b : Word)
  /-- COS, op `0x51`: `a` FIX radians, `b` ignored (R198). -/
  | cos (a b : Word)
  /-- FASTSIN, op `0x52`: `a` FIX radians, `b` ignored (R200). -/
  | fastsin (a b : Word)
  /-- FASTCOS, op `0x53`: `a` FIX radians, `b` ignored (R201). -/
  | fastcos (a b : Word)
  /-- TAN, op `0x54`: `a` FIX radians, `b` ignored (R206). -/
  | tan (a b : Word)
  /-- ACOS, op `0x55`: `a` FIX, `b` ignored (R209). -/
  | acos (a b : Word)
  /-- ATAN, op `0x56`: `a` FIX, `b` ignored (R207). -/
  | atan (a b : Word)
  /-- ATAN2, op `0x57`: `a` FIX y, `b` FIX x (R208). -/
  | atan2 (a b : Word)
deriving DecidableEq, Repr

/-- The operation code that selects the command (R55). -/
def Instr.opcode : Instr → OpCode
  | .fromraw _ _ => 0x00#8
  | .fromint _ _ => 0x01#8
  | .toint _ _ => 0x02#8
  | .fromf64 _ _ => 0x03#8
  | .tof64 _ _ => 0x04#8
  | .czero _ _ => 0x10#8
  | .cone _ _ => 0x11#8
  | .cmin _ _ => 0x12#8
  | .cmax _ _ => 0x13#8
  | .cpi _ _ => 0x14#8
  | .cpio2 _ _ => 0x15#8
  | .cpi2 _ _ => 0x16#8
  | .cprec _ _ => 0x17#8
  | .add _ _ => 0x20#8
  | .sub _ _ => 0x21#8
  | .mul _ _ => 0x22#8
  | .div _ _ => 0x23#8
  | .mod _ _ => 0x24#8
  | .neg _ _ => 0x25#8
  | .cmp _ _ => 0x26#8
  | .eq _ _ => 0x27#8
  | .sign _ _ => 0x30#8
  | .abs _ _ => 0x31#8
  | .fastabs _ _ => 0x32#8
  | .floor _ _ => 0x33#8
  | .ceil _ _ => 0x34#8
  | .round _ _ => 0x35#8
  | .sqrt _ _ => 0x40#8
  | .log2 _ _ => 0x41#8
  | .ln _ _ => 0x42#8
  | .pow2 _ _ => 0x43#8
  | .pow _ _ => 0x44#8
  | .sin _ _ => 0x50#8
  | .cos _ _ => 0x51#8
  | .fastsin _ _ => 0x52#8
  | .fastcos _ _ => 0x53#8
  | .tan _ _ => 0x54#8
  | .acos _ _ => 0x55#8
  | .atan _ _ => 0x56#8
  | .atan2 _ _ => 0x57#8

/-- The first operand field, `CW[127:64]` (R50). -/
def Instr.opA : Instr → Word
  | .fromraw a _ => a
  | .fromint a _ => a
  | .toint a _ => a
  | .fromf64 a _ => a
  | .tof64 a _ => a
  | .czero a _ => a
  | .cone a _ => a
  | .cmin a _ => a
  | .cmax a _ => a
  | .cpi a _ => a
  | .cpio2 a _ => a
  | .cpi2 a _ => a
  | .cprec a _ => a
  | .add a _ => a
  | .sub a _ => a
  | .mul a _ => a
  | .div a _ => a
  | .mod a _ => a
  | .neg a _ => a
  | .cmp a _ => a
  | .eq a _ => a
  | .sign a _ => a
  | .abs a _ => a
  | .fastabs a _ => a
  | .floor a _ => a
  | .ceil a _ => a
  | .round a _ => a
  | .sqrt a _ => a
  | .log2 a _ => a
  | .ln a _ => a
  | .pow2 a _ => a
  | .pow a _ => a
  | .sin a _ => a
  | .cos a _ => a
  | .fastsin a _ => a
  | .fastcos a _ => a
  | .tan a _ => a
  | .acos a _ => a
  | .atan a _ => a
  | .atan2 a _ => a

/-- The second operand field, `CW[63:0]` (R50). -/
def Instr.opB : Instr → Word
  | .fromraw _ b => b
  | .fromint _ b => b
  | .toint _ b => b
  | .fromf64 _ b => b
  | .tof64 _ b => b
  | .czero _ b => b
  | .cone _ b => b
  | .cmin _ b => b
  | .cmax _ b => b
  | .cpi _ b => b
  | .cpio2 _ b => b
  | .cpi2 _ b => b
  | .cprec _ b => b
  | .add _ b => b
  | .sub _ b => b
  | .mul _ b => b
  | .div _ b => b
  | .mod _ b => b
  | .neg _ b => b
  | .cmp _ b => b
  | .eq _ b => b
  | .sign _ b => b
  | .abs _ b => b
  | .fastabs _ b => b
  | .floor _ b => b
  | .ceil _ b => b
  | .round _ b => b
  | .sqrt _ b => b
  | .log2 _ b => b
  | .ln _ b => b
  | .pow2 _ b => b
  | .pow _ b => b
  | .sin _ b => b
  | .cos _ b => b
  | .fastsin _ b => b
  | .fastcos _ b => b
  | .tan _ b => b
  | .acos _ b => b
  | .atan _ b => b
  | .atan2 _ b => b

end Sys2Proof
end

