-- ==== Sys2Proof/WellFormed.lean ====
section
/-! DEFINITION. What the spec calls a legal command word and a legal response word. A command has no
reserved field and no reserved operand value (30_encoding.md section 6), so the operation code is
the whole check of a command; a response with an error carries the result word zero (R51, R243). -/

namespace Sys2Proof

/-- The 40 operation codes of R55, as the six runs that R56's list of reserved codes leaves. -/
def OpCode.defined (op : OpCode) : Bool :=
  op ≤ 0x04#8 || (0x10#8 ≤ op && op ≤ 0x17#8) || (0x20#8 ≤ op && op ≤ 0x27#8) ||
    (0x30#8 ≤ op && op ≤ 0x35#8) || (0x40#8 ≤ op && op ≤ 0x44#8) || (0x50#8 ≤ op && op ≤ 0x57#8)

/-- A command word is well formed when its operation code is not reserved (R56; 30_encoding.md
section 6). -/
def CommandWord.wellFormed (cw : CommandWord) : Bool :=
  OpCode.defined (cw.extractLsb' 128 8)

/-- A command is well formed when its operation code is one of the table's; its operands may be any
words (R2, R57; 30_encoding.md section 6). -/
def Instr.wellFormed (i : Instr) : Bool := OpCode.defined i.opcode

/-- A response word is well formed when an error carries no value: the result field of an error is
zero (R51, R243). -/
def ResponseWord.wellFormed (rw : ResponseWord) : Bool :=
  rw.extractLsb' 64 2 == 0#2 || rw.extractLsb' 0 64 == 0#64

end Sys2Proof
end

