-- ==== Sys2Proof/Decode.lean ====
section
/-! DEFINITION. The decoder, total on every command word and rejecting the reserved codes by name,
and after it the encoder (30_encoding.md R50, R55, R56). Matching is on all 8 bits of the operation
code; operand bits never take part (R55). -/

namespace Sys2Proof

/-- What the decoder answers. -/
inductive Decoded where
  /-- The word is this command. -/
  | instr (i : Instr)
  /-- The operation code is one of the 216 reserved codes (R56). -/
  | reservedCode (op : OpCode)
deriving DecidableEq, Repr

/-- The command that an operation code and two operand fields name: the opcode map (R55). -/
def decodeFields (op : OpCode) (a b : Word) : Decoded :=
  match op with
  | 0x00#8 => .instr (.fromraw a b)
  | 0x01#8 => .instr (.fromint a b)
  | 0x02#8 => .instr (.toint a b)
  | 0x03#8 => .instr (.fromf64 a b)
  | 0x04#8 => .instr (.tof64 a b)
  | 0x10#8 => .instr (.czero a b)
  | 0x11#8 => .instr (.cone a b)
  | 0x12#8 => .instr (.cmin a b)
  | 0x13#8 => .instr (.cmax a b)
  | 0x14#8 => .instr (.cpi a b)
  | 0x15#8 => .instr (.cpio2 a b)
  | 0x16#8 => .instr (.cpi2 a b)
  | 0x17#8 => .instr (.cprec a b)
  | 0x20#8 => .instr (.add a b)
  | 0x21#8 => .instr (.sub a b)
  | 0x22#8 => .instr (.mul a b)
  | 0x23#8 => .instr (.div a b)
  | 0x24#8 => .instr (.mod a b)
  | 0x25#8 => .instr (.neg a b)
  | 0x26#8 => .instr (.cmp a b)
  | 0x27#8 => .instr (.eq a b)
  | 0x30#8 => .instr (.sign a b)
  | 0x31#8 => .instr (.abs a b)
  | 0x32#8 => .instr (.fastabs a b)
  | 0x33#8 => .instr (.floor a b)
  | 0x34#8 => .instr (.ceil a b)
  | 0x35#8 => .instr (.round a b)
  | 0x40#8 => .instr (.sqrt a b)
  | 0x41#8 => .instr (.log2 a b)
  | 0x42#8 => .instr (.ln a b)
  | 0x43#8 => .instr (.pow2 a b)
  | 0x44#8 => .instr (.pow a b)
  | 0x50#8 => .instr (.sin a b)
  | 0x51#8 => .instr (.cos a b)
  | 0x52#8 => .instr (.fastsin a b)
  | 0x53#8 => .instr (.fastcos a b)
  | 0x54#8 => .instr (.tan a b)
  | 0x55#8 => .instr (.acos a b)
  | 0x56#8 => .instr (.atan a b)
  | 0x57#8 => .instr (.atan2 a b)
  | _ => .reservedCode op

/-- The operation code field, `CW[135:128]` (R50). -/
def CommandWord.op (cw : CommandWord) : OpCode := cw.extractLsb' 128 8

/-- The first operand field, `CW[127:64]` (R50). -/
def CommandWord.a (cw : CommandWord) : Word := cw.extractLsb' 64 64

/-- The second operand field, `CW[63:0]` (R50). -/
def CommandWord.b (cw : CommandWord) : Word := cw.extractLsb' 0 64

/-- The command word of three fields, the operation code in the high bits (R50). -/
def commandWord (op : OpCode) (a b : Word) : CommandWord := op ++ a ++ b

/-- The decoder: one format, one length (R50, R58). -/
def decode (cw : CommandWord) : Decoded :=
  decodeFields (CommandWord.op cw) (CommandWord.a cw) (CommandWord.b cw)

/-- The encoder: the command word of a command (R50, R55). -/
def encode (i : Instr) : CommandWord := commandWord i.opcode i.opA i.opB

/-- The 136-bit word that the low `nbits` bits of `w` stand for, the bits above them zero (log
entry 6). -/
def wordOfBits (nbits w : Nat) : CommandWord := BitVec.ofNat 136 (w % 2 ^ nbits)

/-- What the decoder reads from an instruction whose bits are `w`, numbered as the opcode table
numbers them: the table's words are the 136-bit numbers of R50, bit 0 the least significant. None
where the decoder refuses, and where a set bit lies above the only format there is (R58). -/
def decodeTableWord (nbits w : Nat) : Option Instr :=
  if 2 ^ 136 ≤ w % 2 ^ nbits then none
  else
    match decode (wordOfBits nbits w) with
    | .instr i => some i
    | .reservedCode _ => none

end Sys2Proof
end

