-- ==== Sys2Proof/Config.lean ====
section
/-! DEFINITION. The named parameters and wired constants of the unit (00_scope.md section 4,
20_memory.md R30). Every one has a fixed value in the spec; R79 asks a model to take them as named
values and never to derive them from a floating-point number. The three parameters the spec leaves
open are not here: `LATENCY` is data of the state (log entry 3), `SERIAL_BYTE_ORDER` and
`N_REQUESTERS` are outside the unit (log entry 9). -/

namespace Sys2Proof.Config

/-- `WORD_BITS`: width of a raw value (R2). -/
def WORD_BITS : Nat := 64

/-- `FRAC_BITS`: fraction bits of a raw value (R2). -/
def FRAC_BITS : Nat := 32

/-- `ONE`: the raw value of 1 (R72). -/
def ONE : Int := 2 ^ 32

/-- `MAXV`: the largest raw value (R74). -/
def MAXV : Int := 2 ^ 63 - 1

/-- `MINV`: the smallest raw value (R73). -/
def MINV : Int := -2 ^ 63

/-- `PI` (R75). -/
def PI : Nat := 0x3243F6A88

/-- `PI_OVER_2` (R76). -/
def PI_OVER_2 : Nat := 0x1921FB544

/-- `PI_TIMES_2`, rounded on its own and therefore `2 * PI + 1` (R77). -/
def PI_TIMES_2 : Nat := 0x6487ED511

/-- `LN2`: ln 2 with 32 fraction bits (R166). -/
def LN2 : Nat := 0xB17217F7

/-- `LN2_Q64`: ln 2 with 64 fraction bits (R168). -/
def LN2_Q64 : Nat := 0xB17217F7D1CF79AB

/-- `PIO2_Q96`: half of pi with 96 fraction bits (R193). -/
def PIO2_Q96 : Nat := 0x1921FB54442D18469898CC517

/-- `PI_Q96` (R193). -/
def PI_Q96 : Nat := 2 * PIO2_Q96

/-- `TWO_PI_Q96`: the period of the angle reduction (R193). -/
def TWO_PI_Q96 : Nat := 4 * PIO2_Q96

/-- `PI_Q128`: pi with 128 fraction bits, used by the sine table's generator only (R192). -/
def PI_Q128 : Nat := 0x3243F6A8885A308D313198A2E03707344

/-- `LUT_BITS`: the sine table has `2 ^ LUT_BITS + 1` entries (R190). -/
def LUT_BITS : Nat := 17

/-- `LUT_SIZE` (R190). -/
def LUT_SIZE : Nat := 2 ^ 17 + 1

/-- `FAST_BITS`: the coarse view has `2 ^ FAST_BITS + 1` entries (R199). -/
def FAST_BITS : Nat := 14

/-- `LOG2_ITERS` (R163). -/
def LOG2_ITERS : Nat := 32

/-- `POW2_TERMS` (R167). -/
def POW2_TERMS : Nat := 24

/-- `CORDIC_ITERS` (R203). -/
def CORDIC_ITERS : Nat := 40

/-- `CORDIC_NORM_BITS` (R203). -/
def CORDIC_NORM_BITS : Nat := 60

/-- `SQRT_PAIRS` (R161). -/
def SQRT_PAIRS : Nat := 48

end Sys2Proof.Config
end

