-- ==== Sys2Proof/Machine/Arith.lean ====
section
/-! DEFINITION. The notation of 00_scope.md section 5 and its helper functions R5 to R8, with the
digit-by-digit square root of R161. Arithmetic is on unbounded integers. -/

namespace Sys2Proof.Machine

open Sys2Proof.Config

/-- `s64(w)`: the signed value of a 64-bit word (00_scope.md section 5). -/
def s64 (w : Word) : Int := w.toInt

/-- `u64(v)`: `v mod 2^64`, as the 64-bit word (00_scope.md section 5). -/
def u64 (v : Int) : Word := BitVec.ofInt 64 v

/-- `v << k`: exact, never truncated (00_scope.md section 5). -/
def shl (v : Int) (k : Nat) : Int := v * 2 ^ k

/-- `v >> k`: the floor of `v / 2^k`, for negative `v` too (00_scope.md section 5). -/
def asr (v : Int) (k : Nat) : Int := v >>> k

/-- `msb(v)` for `v > 0`: the position of the highest set bit (00_scope.md section 5). -/
def msb (v : Nat) : Nat := Nat.log2 v

/-- `bitlen(v)` for `v > 0`: the number of bits of `v` (00_scope.md section 5). -/
def bitlen (v : Nat) : Nat := msb v + 1

/-- `sat(v)`: saturation to the raw range (R5). -/
def sat (v : Int) : Int := if MAXV < v then MAXV else if v < MINV then MINV else v

/-- `rne(v, k)`: the integer nearest to `v / 2^k`, ties to the even one (R6). -/
def rne (v : Int) (k : Nat) : Int :=
  let q := asr v k
  let rem := v - q * 2 ^ k
  let half : Int := 2 ^ (k - 1)
  if half < rem ∨ (rem = half ∧ q % 2 = 1) then q + 1 else q

/-- `tdiv(n, d)`: the quotient truncated toward zero (R7). -/
def tdiv (n d : Int) : Int := n.sign * d.sign * ((n.natAbs / d.natAbs : Nat) : Int)

/-- `trem(n, d)`: the remainder that belongs to `tdiv` (R7). -/
def trem (n d : Int) : Int := n - tdiv n d * d

/-- One digit of the square root: bring down the pair `r[2i+1 : 2i]`, try `4q + 1`, keep the root and
the remainder (R161). -/
def sqrtStep (r i : Nat) (st : Nat × Nat) : Nat × Nat :=
  let rem := st.2 * 4 + r / 2 ^ (2 * i) % 4
  let trial := st.1 * 4 + 1
  if trial ≤ rem then (st.1 * 2 + 1, rem - trial) else (st.1 * 2, rem)

/-- The digits `n - 1` down to 0 (R161). -/
def sqrtLoop (r : Nat) : Nat → Nat × Nat → Nat × Nat
  | 0, st => st
  | n + 1, st => sqrtLoop r n (sqrtStep r n st)

/-- `isqrt(r)`, computed digit by digit with 48 pairs of bits (R8, R161). -/
def isqrt (r : Nat) : Nat := (sqrtLoop r SQRT_PAIRS (0, 0)).1

end Sys2Proof.Machine
end

