-- ==== Sys2Proof/Machine/Operands.lean ====
section
/-! DEFINITION. How the operand fields are read and the result field is written (30_encoding.md R52,
R53) and what the rule of a command ends in (60_exceptions.md R240, R241). -/

namespace Sys2Proof.Machine

/-- The ways a command can fail, the error kinds of R241. -/
inductive ErrorKind where
  /-- Code 1, DIV_BY_ZERO. -/
  | divByZero
  /-- Code 2, DOMAIN. -/
  | domain
  /-- Code 3, ILLEGAL_COMMAND: a reserved operation code (R56). -/
  | illegalCommand
deriving DecidableEq, Repr

/-- The code of an error on `rsp_err` (R241). -/
def ErrorKind.code : ErrorKind → ErrCode
  | .divByZero => 1
  | .domain => 2
  | .illegalCommand => 3

/-- How the rule of a command ends: `result <- v`, as the word `u64(v)`, or `raise` (R240). -/
inductive Result where
  /-- The command completes with this result word. -/
  | word (w : Word)
  /-- The command completes with this error. -/
  | raise (e : ErrorKind)
deriving DecidableEq, Repr

/-- `result <- v` for an integer `v`: a FIX raw value or an unscaled INT (R53, R240). -/
def Result.value (v : Int) : Result := .word (u64 v)

/-- The error code of the response (R240, R241): 0 is OK. -/
def Result.err : Result → ErrCode
  | .word _ => 0
  | .raise e => e.code

/-- The result word of the response: zero on an error (R240, R243). -/
def Result.res : Result → Word
  | .word w => w
  | .raise _ => 0

/-- The response word `{err, result}` (R51). -/
def responseWord (err : ErrCode) (res : Word) : ResponseWord := err ++ res

/-- A FIX operand: a Q32.32 raw value, signed (R2, R52). -/
def fixOperand (w : Word) : Int := s64 w

/-- The fraction field `ua[31:0]` of a FIX operand (R2; 43_rounding_sign.md). -/
def fracField (w : Word) : Nat := (w.extractLsb' 0 32).toNat

/-- The fields of an F64 operand, an IEEE 754 binary64 pattern (R52, R92). -/
structure F64 where
  /-- Bit 63, the sign. -/
  s : Bool
  /-- Bits 62..52, the biased exponent. -/
  E : Nat
  /-- Bits 51..0, the fraction. -/
  M : Nat
deriving DecidableEq, Repr

/-- An F64 operand (R52). -/
def f64Operand (w : Word) : F64 :=
  { s := w.getLsbD 63, E := (w.extractLsb' 52 11).toNat, M := (w.extractLsb' 0 52).toNat }

/-- An F64 result: the pattern with these three fields (R53, R93). -/
def f64Result (f : F64) : Word :=
  BitVec.ofBool f.s ++ BitVec.ofNat 11 f.E ++ BitVec.ofNat 52 f.M

end Sys2Proof.Machine
end

