-- ==== Sys2Proof/Machine/State.lean ====
section
/-! DEFINITION. The state of the unit and of its ports, as plain data (10_state.md R11 to R13, R16,
R19; 70_reset_and_hazards.md R271, R276), the reset state, and the reasons a step can stop. -/

namespace Sys2Proof.Machine

/-- The phase register: its three legal values (R13, R16). The spec gives no encoding of them. -/
inductive Phase where
  /-- No command is held. -/
  | idle
  /-- A command is latched and not yet executed. -/
  | busy
  /-- A response is latched and not yet taken. -/
  | done
deriving DecidableEq, Repr

/-- The levels of the input ports in one clock cycle, as the host drives them (R19). -/
structure HostPins where
  /-- `reset`, active high (R270). -/
  reset : Bool
  /-- `cmd_valid`: the host offers a command. -/
  cmd_valid : Bool
  /-- `cmd_op`: the operation code offered. -/
  cmd_op : OpCode
  /-- `cmd_a`: the first operand offered. -/
  cmd_a : Word
  /-- `cmd_b`: the second operand offered. -/
  cmd_b : Word
  /-- `rsp_ready`: the host takes a response. -/
  rsp_ready : Bool
deriving DecidableEq, Repr

/-- The host offers nothing, takes nothing and leaves `reset` low (log entry 2). -/
def HostPins.quiet : HostPins :=
  { reset := false, cmd_valid := false, cmd_op := 0, cmd_a := 0, cmd_b := 0, rsp_ready := false }

/-- One entry of the open parameter `LATENCY` (R276): the command `op a b` takes `extra + 1` clock
edges from ACCEPT to its response. -/
structure LatencyEntry where
  /-- The operation code. -/
  op : OpCode
  /-- The first operand. -/
  a : Word
  /-- The second operand. -/
  b : Word
  /-- The edges beyond the one that every command takes. -/
  extra : Nat
deriving DecidableEq, Repr

/-- Everything the spec gives the unit to hold (R16), the levels of its input ports (R19), and three
fields of the model's own: `plan`, `latency` and `wait` (log entries 2 and 3). The ROM is constant
(R17) and stands in Machine/Rom.lean. -/
structure State where
  /-- The phase (R13). -/
  phase : Phase
  /-- The operation code of the command latch (R11). -/
  op_q : OpCode
  /-- The first operand of the command latch (R11). -/
  a_q : Word
  /-- The second operand of the command latch (R11). -/
  b_q : Word
  /-- The error code of the response latch (R12). -/
  err_q : ErrCode
  /-- The result word of the response latch (R12). -/
  res_q : Word
  /-- The levels the host drives in the present clock cycle (R19). -/
  pins : HostPins
  /-- The levels the host drives in the cycles to come, the next first. When it is empty the levels
  stay as they are. The model's own field (log entry 2). -/
  plan : List HostPins
  /-- The open parameter `LATENCY` (R276), commands not listed taking one edge. The model's own
  field, which no step changes (log entry 3). -/
  latency : List LatencyEntry
  /-- The edges that pass before the command in the unit is at its EXECUTE edge. The model's own
  field (log entry 3). -/
  wait : Nat
deriving DecidableEq, Repr

/-- The reasons the machine could stop with a fault. There are none: an error of a command is an
answer in its response and leaves no trace (R241, R244), every command and every reserved code is
answered (R240), and the unit addresses nothing (R30, R37). -/
inductive Fault
deriving DecidableEq, Repr

/-- The reasons a step has no meaning. -/
inductive Refusal where
  /-- Raised by `exec` for an instruction that has no meaning yet; none is left. Safe: the model
  stops where the hardware goes on. -/
  | notModelled (mnemonic : String)
  /-- Raised by `step` when the host changes or withdraws an offered command before it is accepted,
  which breaks rule H-a of R274. The unit's behaviour is then not defined and the spec tells a model
  to refuse the trace (93_implementation_defined.md U3). Safe: nothing is claimed of such a host. -/
  | handshakeBroken
deriving DecidableEq, Repr

/-- The machine right after reset: IDLE, `reset` low again, the host quiet, every latch at zero (R23,
R271; the zeros are log entry 1, the host's levels log entry 2, the latency log entry 3). -/
def State.reset : State :=
  { phase := .idle, op_q := 0, a_q := 0, b_q := 0, err_q := 0, res_q := 0,
    pins := HostPins.quiet, plan := [], latency := [], wait := 0 }

end Sys2Proof.Machine
end

