-- ==== Sys2Proof/Machine/Ops.lean ====
section
/-! DEFINITION. The named operations over the registers of the unit: the command latch, the response
latch, the phase and the wait register (10_state.md R11 to R13, R20 to R22; 60_exceptions.md R240,
R244; 70_reset_and_hazards.md R270, R271, R276). The unit has no memory to operate on (R30). -/

namespace Sys2Proof.Machine

/-- EXECUTE's effect: the response is latched and the phase becomes DONE; nothing else changes
(R21). -/
def State.answer (s : State) (err : ErrCode) (res : Word) : State :=
  { s with phase := .done, err_q := err, res_q := res }

/-- How every command ends, with a result or with an error. An error is taken here: the unit has no
handler, saves nothing and changes no mode, the response carries the code and a zero result (R240,
R241, R243, R244). There is no return from an error (R247): delivering the response is all that
follows. -/
def finish (r : Result) (s : State) : Host.Outcome State Fault Refusal :=
  .next (s.answer r.err r.res)

/-- The answer to a reserved operation code: ILLEGAL_COMMAND, the operands ignored (R56, R240). -/
def illegalCommand (s : State) : Host.Outcome State Fault Refusal :=
  finish (.raise .illegalCommand) s

/-- The edges that a command takes beyond the one every command takes: `LATENCY(op, a, b) - 1`
(R276; log entry 3). -/
def State.extraEdges (s : State) (op : OpCode) (a b : Word) : Nat :=
  match s.latency.find? (fun e => e.op == op && e.a == a && e.b == b) with
  | some e => e.extra
  | none => 0

/-- `LATENCY(op, a, b)`: finite and at least 1, the same whatever came before (R276). -/
def State.latencyOf (s : State) (op : OpCode) (a b : Word) : Nat := s.extraEdges op a b + 1

/-- ACCEPT's effect: the command is latched and the phase becomes BUSY (R20). The wait register is
the model's own (log entry 3). -/
def State.acceptCommand (s : State) (op : OpCode) (a b : Word) : State :=
  { s with phase := .busy, op_q := op, a_q := a, b_q := b, wait := s.extraEdges op a b }

/-- One edge passes while the unit works on the command (R276). -/
def State.tick (s : State) : State := { s with wait := s.wait - 1 }

/-- DELIVER's effect: the phase becomes IDLE; the latches keep bits that mean nothing (R22). -/
def State.deliver (s : State) : State := { s with phase := .idle }

/-- The reset step: the phase becomes IDLE whatever it was and a command in the unit is dropped (R270,
R271, R277). The latches are unspecified; the model gives them the values of `State.reset` (log entry
1). -/
def State.resetUnit (s : State) : State :=
  { s with phase := .idle, op_q := 0, a_q := 0, b_q := 0, err_q := 0, res_q := 0, wait := 0 }

end Sys2Proof.Machine
end

