-- ==== Sys2Proof/Machine/Conversion.lean ====
section
/-! DEFINITION. Conversions from and to integers and binary64 (41_conversion.md R90 to R93). Integer
conversion wraps, floating conversion clamps. -/

namespace Sys2Proof.Machine

open Sys2Proof.Config

/-- FROMINT: `s64(a << 32)`, wrapping (R90). -/
def execFromint (a : Word) (s : State) : Host.Outcome State Fault Refusal :=
  finish (.value (shl (s64 a) 32)) s

/-- TOINT: `a >> 32`, the floor of the value (R91; 90_conflicts.md C1). -/
def execToint (a : Word) (s : State) : Host.Outcome State Fault Refusal :=
  finish (.value (asr (s64 a) 32)) s

/-- The magnitude of a normal binary64 number times `2^32`, rounded to the nearest integer, ties to
even: the significand `2^52 + M` shifted by `E - 1043` (R92). -/
def f64Magnitude (f : F64) : Int :=
  let sig : Int := 2 ^ 52 + (f.M : Int)
  if 1043 ≤ f.E then shl sig (f.E - 1043) else rne sig (1043 - f.E)

/-- The rule of FROMF64: a NaN raises DOMAIN, an infinity clamps, a zero or a subnormal is 0, any
other number is rounded once and clamped (R92). -/
def f64ToRaw (f : F64) : Result :=
  if f.E = 2047 ∧ f.M ≠ 0 then .raise .domain
  else if f.E = 2047 then .value (if f.s then MINV else MAXV)
  else if f.E = 0 then .value 0
  else .value (sat (if f.s then -f64Magnitude f else f64Magnitude f))

/-- FROMF64 (R92). -/
def execFromf64 (a : Word) (s : State) : Host.Outcome State Fault Refusal :=
  finish (f64ToRaw (f64Operand a)) s

/-- The binary64 pattern nearest to `a / 2^32`, ties to the even significand; zero is `+0.0`
(R93). -/
def rawToF64 (a : Int) : Word :=
  if a = 0 then 0
  else
    let m := a.natAbs
    let p := msb m
    let q := if p ≤ 52 then m * 2 ^ (52 - p) else (rne (m : Int) (p - 52)).toNat
    let carry : Bool := q == 2 ^ 53
    let q' := if carry then 2 ^ 52 else q
    let p' := if carry then p + 1 else p
    f64Result { s := decide (a < 0), E := p' + 1023 - 32, M := q' - 2 ^ 52 }

/-- TOF64 (R93). -/
def execTof64 (a : Word) (s : State) : Host.Outcome State Fault Refusal :=
  finish (.word (rawToF64 (s64 a))) s

end Sys2Proof.Machine
end

