-- ==== Sys2Proof/Machine/Representation.lean ====
section
/-! DEFINITION. FROMRAW and the eight named constants (40_representation_constants.md R70 to R78). -/

namespace Sys2Proof.Machine

open Sys2Proof.Config

/-- FROMRAW: the 64 bits of `a` unchanged (R70). -/
def execFromraw (a : Word) (s : State) : Host.Outcome State Fault Refusal :=
  finish (.word a) s

/-- CZERO (R71). -/
def execCzero (s : State) : Host.Outcome State Fault Refusal := finish (.value 0) s

/-- CONE (R72). -/
def execCone (s : State) : Host.Outcome State Fault Refusal := finish (.value ONE) s

/-- CMIN (R73). -/
def execCmin (s : State) : Host.Outcome State Fault Refusal := finish (.value MINV) s

/-- CMAX (R74). -/
def execCmax (s : State) : Host.Outcome State Fault Refusal := finish (.value MAXV) s

/-- CPI (R75). -/
def execCpi (s : State) : Host.Outcome State Fault Refusal := finish (.value PI) s

/-- CPIO2 (R76). -/
def execCpio2 (s : State) : Host.Outcome State Fault Refusal := finish (.value PI_OVER_2) s

/-- CPI2 (R77). -/
def execCpi2 (s : State) : Host.Outcome State Fault Refusal := finish (.value PI_TIMES_2) s

/-- CPREC (R78). -/
def execCprec (s : State) : Host.Outcome State Fault Refusal := finish (.value 1) s

end Sys2Proof.Machine
end

