-- ==== Sys2Proof/Machine/Flags.lean ====
section
/-! DEFINITION. The unit has no flags and no condition codes; what other machines put into flags, the
outcome of a comparison, is a result value here (10_state.md R15; 42_arithmetic.md R116, R117;
43_rounding_sign.md R140). These are those computations. -/

namespace Sys2Proof.Machine

/-- The three-way outcome of a signed comparison: -1 if less, 0 if equal, 1 if greater (R116). -/
def threeWay (x y : Int) : Int := if x < y then -1 else if x = y then 0 else 1

/-- The outcome of an equality test on all 64 bits: 1 if equal, else 0 (R117). -/
def equalOutcome (x y : Word) : Int := if x = y then 1 else 0

end Sys2Proof.Machine
end

