-- ==== Sys2Proof/Machine/Arithmetic.lean ====
section
/-! DEFINITION. The arithmetic core: the saturating adder, multiplier and divider and the commands
over them (42_arithmetic.md R110 to R118). Saturation is silent and follows the exact result. -/

namespace Sys2Proof.Machine

open Sys2Proof.Config

/-- `saturating_multiplier_64bit`: the exact product, rounded to nearest even, then saturated
(R112). -/
def mulRaw (a b : Int) : Int := sat (rne (a * b) 32)

/-- `saturating_divider_64bit`: the quotient of `a << 32` by `b`, truncated toward zero, then
saturated; a zero divisor raises before anything else (R113). -/
def divRaw (a b : Int) : Result :=
  if b = 0 then .raise .divByZero else .value (sat (tdiv (shl a 32) b))

/-- The truncating remainder on the raw integers, exact (R114; 90_conflicts.md C2). -/
def modRaw (a b : Int) : Result :=
  if b = 0 then .raise .divByZero else .value (trem a b)

/-- ADD (R110). -/
def execAdd (a b : Word) (s : State) : Host.Outcome State Fault Refusal :=
  finish (.value (sat (fixOperand a + fixOperand b))) s

/-- SUB: the exact difference, then saturated (R111). -/
def execSub (a b : Word) (s : State) : Host.Outcome State Fault Refusal :=
  finish (.value (sat (fixOperand a - fixOperand b))) s

/-- MUL (R112). -/
def execMul (a b : Word) (s : State) : Host.Outcome State Fault Refusal :=
  finish (.value (mulRaw (fixOperand a) (fixOperand b))) s

/-- DIV (R113). -/
def execDiv (a b : Word) (s : State) : Host.Outcome State Fault Refusal :=
  finish (divRaw (fixOperand a) (fixOperand b)) s

/-- MOD (R114). -/
def execMod (a b : Word) (s : State) : Host.Outcome State Fault Refusal :=
  finish (modRaw (fixOperand a) (fixOperand b)) s

/-- NEG (R115). -/
def execNeg (a : Word) (s : State) : Host.Outcome State Fault Refusal :=
  finish (.value (sat (-fixOperand a))) s

/-- CMP: the outcome as an unscaled integer (R116). -/
def execCmp (a b : Word) (s : State) : Host.Outcome State Fault Refusal :=
  finish (.value (threeWay (fixOperand a) (fixOperand b))) s

/-- EQ: all 64 bits equal, as an unscaled integer (R117). -/
def execEq (a b : Word) (s : State) : Host.Outcome State Fault Refusal :=
  finish (.value (equalOutcome a b)) s

end Sys2Proof.Machine
end

