-- ==== Sys2Proof/Machine/RootsLogsPowers.lean ====
section
/-! DEFINITION. Square root, logarithms and powers: `digit_by_digit_sqrt_q32`,
`binary_log_decomposer` and `power_unit` (44_sqrt_log_pow.md R160 to R171). Every shift and division
truncates as the rules write it. -/

namespace Sys2Proof.Machine

open Sys2Proof.Config

/-- SQRT: the integer square root at doubled precision, DOMAIN for a negative operand (R160). -/
def execSqrt (a : Word) (s : State) : Host.Outcome State Fault Refusal :=
  finish (if fixOperand a < 0 then .raise .domain
    else .value (isqrt (shl (fixOperand a) 32).toNat : Int)) s

/-- The fraction bits of the binary logarithm, `n` of them left: square the mantissa, halve it and set
the bit if the square reached 2 (R163). The iteration `i` of R163 has `n = 32 - i` bits after it. -/
def log2Loop : (n : Nat) → (z : Nat) → (y : Int) → Int
  | 0, _, y => y
  | n + 1, z, y =>
    let z' := z * z / 2 ^ 62
    if 2 ^ 63 ≤ z' then log2Loop n (z' / 2) (y + 2 ^ n) else log2Loop n z' y

/-- `binary_log_decomposer` on a positive raw value (R163). -/
def log2Raw (a : Nat) : Int :=
  log2Loop LOG2_ITERS (a * 2 ^ (62 - msb a)) (((msb a : Int) - 32) * 2 ^ 32)

/-- LOG2 (R163). -/
def execLog2 (a : Word) (s : State) : Host.Outcome State Fault Refusal :=
  finish (if fixOperand a ≤ 0 then .raise .domain else .value (log2Raw (fixOperand a).toNat)) s

/-- LN: the binary logarithm times ln 2, by the unit's own multiply (R165). -/
def execLn (a : Word) (s : State) : Host.Outcome State Fault Refusal :=
  finish (if fixOperand a ≤ 0 then .raise .domain
    else .value (mulRaw (log2Raw (fixOperand a).toNat) LN2)) s

/-- The exponential series from the term `k` on, `n` terms left, with the running term and sum
(R167). -/
def pow2Loop (t : Nat) : (n k term P : Nat) → Nat
  | 0, _, _, P => P
  | n + 1, k, term, P =>
    let term' := term * t / 2 ^ 62 / k
    pow2Loop t n (k + 1) term' (P + term')

/-- The sum `P` of the series for the fraction `f`: `2^(f / 2^32)` with 62 fraction bits (R167). -/
def pow2Series (f : Nat) : Nat :=
  pow2Loop (f * LN2_Q64 / 2 ^ 34) POW2_TERMS 1 (2 ^ 62) (2 ^ 62)

/-- `power_unit`: two to the power of a raw value, saturating above and zero below (R167). -/
def pow2Raw (a : Int) : Int :=
  let n := asr a 32
  let f := (a - shl n 32).toNat
  if 31 ≤ n then MAXV
  else if n ≤ -33 then 0
  else ((pow2Series f / 2 ^ (30 - n).toNat : Nat) : Int)

/-- POW2 (R167). -/
def execPow2 (a : Word) (s : State) : Host.Outcome State Fault Refusal :=
  finish (.value (pow2Raw (fixOperand a))) s

/-- The rule of POW: the four special cases in the source's order, then
`POW2(MUL(b, LOG2(a)))` (R170, R171). -/
def powRaw (a b : Int) : Result :=
  if b = 0 then .value ONE
  else if a = 0 ∧ b < 0 then .raise .divByZero
  else if a < 0 then .raise .domain
  else if a = 0 then .value 0
  else .value (pow2Raw (mulRaw b (log2Raw a.toNat)))

/-- POW: base `a`, exponent `b` (R170). -/
def execPow (a b : Word) (s : State) : Host.Outcome State Fault Refusal :=
  finish (powRaw (fixOperand a) (fixOperand b)) s

end Sys2Proof.Machine
end

