-- ==== Sys2Proof/Machine/Rounding.lean ====
section
/-! DEFINITION. Sign, the two absolute values and the three roundings to an integer value
(43_rounding_sign.md R140 to R145). -/

namespace Sys2Proof.Machine

open Sys2Proof.Config

/-- `fl`: the value with its fraction field cleared (43_rounding_sign.md). -/
def floorRaw (a : Int) : Int := shl (asr a 32) 32

/-- SIGN: as an unscaled integer (R140). -/
def execSign (a : Word) (s : State) : Host.Outcome State Fault Refusal :=
  finish (.value (threeWay (fixOperand a) 0)) s

/-- ABS: saturating (R141). -/
def execAbs (a : Word) (s : State) : Host.Outcome State Fault Refusal :=
  finish (.value (sat ((fixOperand a).natAbs : Int))) s

/-- FASTABS: mask, wrapping add, exclusive-or; it leaves MINV as it is (R142). -/
def execFastabs (a : Word) (s : State) : Host.Outcome State Fault Refusal :=
  finish (.word ((a + a.sshiftRight 63) ^^^ a.sshiftRight 63)) s

/-- FLOOR: the fraction field cleared and nothing else (R143; 90_conflicts.md C3). -/
def execFloor (a : Word) (s : State) : Host.Outcome State Fault Refusal :=
  finish (.value (floorRaw (fixOperand a))) s

/-- CEIL: an integer value as it is, any other value the saturating add of ONE to its floor (R144;
90_conflicts.md C4). -/
def execCeil (a : Word) (s : State) : Host.Outcome State Fault Refusal :=
  finish (.value (if fracField a = 0 then fixOperand a else sat (floorRaw (fixOperand a) + ONE))) s

/-- ROUND: to the nearest integer value, ties to even, saturating (R145; 90_conflicts.md C4). -/
def execRound (a : Word) (s : State) : Host.Outcome State Fault Refusal :=
  let fl := floorRaw (fixOperand a)
  finish (.value
    (if fracField a < 0x80000000 then fl
     else if 0x80000000 < fracField a then sat (fl + ONE)
     else if asr fl 32 % 2 = 0 then fl
     else sat (fl + ONE))) s

end Sys2Proof.Machine
end

