-- ==== Sys2Proof/Machine/Rom.lean ====
section
/-! DEFINITION. The ROM: the sine table by its integer-only generator and the arctangent table
(10_state.md R17; 20_memory.md R30, R31; 45_trigonometry.md R190 to R192, R202). The tables are
constants of the model (R273); reading them changes nothing (R32). -/

namespace Sys2Proof.Machine

open Sys2Proof.Config

/-- The Taylor series of the sine in R192's generator, run until a term is zero. `fuel` bounds the
number of terms and never runs out (log entry 8). -/
def sineSeries : (fuel : Nat) → (th2 term : Nat) → (s : Int) → (k : Nat) → Int
  | 0, _, _, s, _ => s
  | fuel + 1, th2, term, s, k =>
    if term = 0 then s
    else
      let term' := term * th2 / 2 ^ 128 / (2 * k * (2 * k + 1))
      sineSeries fuel th2 term' (if k % 2 = 1 then s - (term' : Int) else s + (term' : Int)) (k + 1)

/-- What R192's generator computes for the index `i`: the integer nearest to
`2^32 * sin(i * pi / 2^18)`. -/
def sinlutValue (i : Nat) : Int :=
  let th := i * PI_Q128 / 2 ^ 18
  let th2 := th * th / 2 ^ 128
  asr (sineSeries 130 th2 th (th : Int) 1 + 2 ^ 95) 96

/-- `RomRead(SINLUT, i)`: one 33-bit entry of the sine table, `0 <= i <= 131072` (R31, R190 to
R192). -/
def sinlut (i : Nat) : BitVec 33 := BitVec.ofInt 33 (sinlutValue i)

/-- `RomRead(SINLUT, i)` as the unsigned number it holds. -/
def romSin (i : Nat) : Int := ((sinlut i).toNat : Int)

/-- `ATAN_TAB`, index 0 first (R202). -/
def ATAN_TAB : List (BitVec 61) :=
  [0x1921FB54442D1847#61, 0x0ED63382B0DDA7B4#61, 0x07D6DD7E4B203759#61, 0x03FAB7535585EDB9#61,
   0x01FF55BB72CFDE9C#61, 0x00FFEAADDD4BB125#61, 0x007FFD556EEDCA6B#61, 0x003FFFAAAB77752E#61,
   0x001FFFF5555BBBB7#61, 0x000FFFFEAAAADDDE#61, 0x0007FFFFD55556EF#61, 0x0003FFFFFAAAAAB7#61,
   0x0001FFFFFF555556#61, 0x0000FFFFFFEAAAAB#61, 0x00007FFFFFFD5555#61, 0x00003FFFFFFFAAAB#61,
   0x00001FFFFFFFF555#61, 0x00000FFFFFFFFEAB#61, 0x000007FFFFFFFFD5#61, 0x000003FFFFFFFFFB#61,
   0x000001FFFFFFFFFF#61, 0x0000010000000000#61, 0x0000008000000000#61, 0x0000004000000000#61,
   0x0000002000000000#61, 0x0000001000000000#61, 0x0000000800000000#61, 0x0000000400000000#61,
   0x0000000200000000#61, 0x0000000100000000#61, 0x0000000080000000#61, 0x0000000040000000#61,
   0x0000000020000000#61, 0x0000000010000000#61, 0x0000000008000000#61, 0x0000000004000000#61,
   0x0000000002000000#61, 0x0000000001000000#61, 0x0000000000800000#61, 0x0000000000400000#61]

/-- `RomRead(ATAN_TAB, i)`, `0 <= i <= 39`, as the unsigned number it holds (R31, R202). -/
def romAtan (i : Nat) : Int := ((ATAN_TAB.getD i 0).toNat : Int)

end Sys2Proof.Machine
end

