-- ==== Sys2Proof/Machine/Trigonometry.lean ====
section
/-! DEFINITION. Trigonometry: `sin_cos_quadrant_reducer`, the two table reads and `atan_core`, and
the eight commands over them (45_trigonometry.md R193 to R209). -/

namespace Sys2Proof.Machine

open Sys2Proof.Config

/-- `reduce(Y)`: the sign flag and the table angle of an angle with 96 fraction bits (R194). -/
def reduceAngle (Y : Int) : Bool × Nat :=
  let r := Y.natAbs % TWO_PI_Q96
  let q := r / PIO2_Q96
  let u := r % PIO2_Q96
  let th := if q % 2 = 1 then PIO2_Q96 - u else u
  ((if 2 ≤ q then !decide (Y < 0) else decide (Y < 0)), th / 2 ^ 64)

/-- `lut_precise(t)`: the table with linear interpolation, the term rounded half up (R196). -/
def lutPrecise (t : Nat) : Int :=
  let pos := t * 2 ^ LUT_BITS
  let idx := pos / PI_OVER_2
  let rem := pos % PI_OVER_2
  if rem = 0 then romSin idx
  else
    let d := romSin (idx + 1) - romSin idx
    romSin idx + (d * rem + (PI_OVER_2 / 2 : Nat)) / (PI_OVER_2 : Int)

/-- `lut_fast(t)`: the nearest entry of the coarse view, every eighth entry of the one table, no
interpolation (R199; 90_conflicts.md C6). -/
def lutFast (t : Nat) : Int :=
  let idxf := (t * 2 ^ FAST_BITS + PI_OVER_2 / 2) / PI_OVER_2
  romSin (idxf * 8)

/-- `sin_core(Y, mode)` with the table read of the mode (R195). -/
def sinCore (lut : Nat → Int) (Y : Int) : Int :=
  let r := reduceAngle Y
  if r.1 then -lut r.2 else lut r.2

/-- The result of SIN (R197): `a << 64` is the angle with 96 fraction bits. -/
def sinRaw (a : Int) : Int := sinCore lutPrecise (shl a 64)

/-- The result of COS (R198): half of pi added at 96 fraction bits. -/
def cosRaw (a : Int) : Int := sinCore lutPrecise (shl a 64 + PIO2_Q96)

/-- SIN (R197). -/
def execSin (a : Word) (s : State) : Host.Outcome State Fault Refusal :=
  finish (.value (sinRaw (fixOperand a))) s

/-- COS (R198). -/
def execCos (a : Word) (s : State) : Host.Outcome State Fault Refusal :=
  finish (.value (cosRaw (fixOperand a))) s

/-- FASTSIN (R200). -/
def execFastsin (a : Word) (s : State) : Host.Outcome State Fault Refusal :=
  finish (.value (sinCore lutFast (shl (fixOperand a) 64))) s

/-- FASTCOS (R201). -/
def execFastcos (a : Word) (s : State) : Host.Outcome State Fault Refusal :=
  finish (.value (sinCore lutFast (shl (fixOperand a) 64 + PIO2_Q96))) s

/-- TAN: the DIV of the SIN by the COS, which raises where the cosine is raw 0 (R206; 90_conflicts.md
C5, C11). -/
def execTan (a : Word) (s : State) : Host.Outcome State Fault Refusal :=
  finish (divRaw (sinRaw (fixOperand a)) (cosRaw (fixOperand a))) s

/-- The vectoring iterations from the index `i` on, `n` of them left: drive `y` to zero and add up the
angle; both shifts use the old `x` and `y` (R204). -/
def cordicLoop : (n i : Nat) → (x y ang : Int) → Int
  | 0, _, _, _, ang => ang
  | n + 1, i, x, y, ang =>
    if 0 ≤ y then cordicLoop n (i + 1) (x + asr y i) (y - asr x i) (ang + romAtan i)
    else cordicLoop n (i + 1) (x - asr y i) (y + asr x i) (ang - romAtan i)

/-- A magnitude brought to the scale at which a `p`-bit number has 60 bits, truncating when it shrinks
(R204). -/
def normalise (p v : Nat) : Nat :=
  if p ≤ CORDIC_NORM_BITS then v * 2 ^ (CORDIC_NORM_BITS - p) else v / 2 ^ (p - CORDIC_NORM_BITS)

/-- `atan_core(x, y)`: the first-quadrant angle of the point `(x, y)` (R204). -/
def atanCore (x y : Nat) : Int :=
  if y = 0 then 0
  else if x = 0 then PI_OVER_2
  else
    let p := bitlen (max x y)
    let ang := cordicLoop CORDIC_ITERS 0 (normalise p x : Int) (normalise p y : Int) 0
    let v := asr (ang + 2 ^ 28) 29
    if v < 0 then 0 else if (PI_OVER_2 : Int) < v then PI_OVER_2 else v

/-- ATAN: the core on the point `(ONE, |a|)`, the sign restored (R207). -/
def execAtan (a : Word) (s : State) : Host.Outcome State Fault Refusal :=
  let v := atanCore ONE.toNat (fixOperand a).natAbs
  finish (.value (if fixOperand a < 0 then -v else v)) s

/-- The rule of ATAN2: fold to the first quadrant, mirror for a negative `x`, negate for a negative `y`
(R208; 90_conflicts.md C7). -/
def atan2Raw (y x : Int) : Int :=
  let v := atanCore x.natAbs y.natAbs
  let v' := if x < 0 then (PI : Int) - v else v
  if y < 0 then -v' else v'

/-- ATAN2: `a` is `y`, `b` is `x` (R208). -/
def execAtan2 (a b : Word) (s : State) : Host.Outcome State Fault Refusal :=
  finish (.value (atan2Raw (fixOperand a) (fixOperand b))) s

/-- The rule of ACOS: DOMAIN outside `[-ONE, ONE]`, else the core on `(|a|, sqrt(2^64 - a^2))`, taken
from PI for a negative operand (R209). -/
def acosRaw (a : Int) : Result :=
  if a < -ONE ∨ ONE < a then .raise .domain
  else
    let v := atanCore a.natAbs (isqrt (2 ^ 64 - a * a).toNat)
    .value (if a < 0 then (PI : Int) - v else v)

/-- ACOS (R209). -/
def execAcos (a : Word) (s : State) : Host.Outcome State Fault Refusal :=
  finish (acosRaw (fixOperand a)) s

end Sys2Proof.Machine
end

