-- ==== Sys2Proof/Machine/Dispatch.lean ====
section
/-! DEFINITION. One arm per command: the EXECUTE step of a decoded command (10_state.md R21,
60_exceptions.md R240). An operand field that R55 marks unused is not passed on (R57). -/

namespace Sys2Proof.Machine

def exec (i : Instr) (s : State) : Host.Outcome State Fault Refusal :=
  match i with
  | .fromraw a _ => Sys2Proof.Machine.execFromraw a s
  | .fromint a _ => Sys2Proof.Machine.execFromint a s
  | .toint a _ => Sys2Proof.Machine.execToint a s
  | .fromf64 a _ => Sys2Proof.Machine.execFromf64 a s
  | .tof64 a _ => Sys2Proof.Machine.execTof64 a s
  | .czero _ _ => Sys2Proof.Machine.execCzero s
  | .cone _ _ => Sys2Proof.Machine.execCone s
  | .cmin _ _ => Sys2Proof.Machine.execCmin s
  | .cmax _ _ => Sys2Proof.Machine.execCmax s
  | .cpi _ _ => Sys2Proof.Machine.execCpi s
  | .cpio2 _ _ => Sys2Proof.Machine.execCpio2 s
  | .cpi2 _ _ => Sys2Proof.Machine.execCpi2 s
  | .cprec _ _ => Sys2Proof.Machine.execCprec s
  | .add a b => Sys2Proof.Machine.execAdd a b s
  | .sub a b => Sys2Proof.Machine.execSub a b s
  | .mul a b => Sys2Proof.Machine.execMul a b s
  | .div a b => Sys2Proof.Machine.execDiv a b s
  | .mod a b => Sys2Proof.Machine.execMod a b s
  | .neg a _ => Sys2Proof.Machine.execNeg a s
  | .cmp a b => Sys2Proof.Machine.execCmp a b s
  | .eq a b => Sys2Proof.Machine.execEq a b s
  | .sign a _ => Sys2Proof.Machine.execSign a s
  | .abs a _ => Sys2Proof.Machine.execAbs a s
  | .fastabs a _ => Sys2Proof.Machine.execFastabs a s
  | .floor a _ => Sys2Proof.Machine.execFloor a s
  | .ceil a _ => Sys2Proof.Machine.execCeil a s
  | .round a _ => Sys2Proof.Machine.execRound a s
  | .sqrt a _ => Sys2Proof.Machine.execSqrt a s
  | .log2 a _ => Sys2Proof.Machine.execLog2 a s
  | .ln a _ => Sys2Proof.Machine.execLn a s
  | .pow2 a _ => Sys2Proof.Machine.execPow2 a s
  | .pow a b => Sys2Proof.Machine.execPow a b s
  | .sin a _ => Sys2Proof.Machine.execSin a s
  | .cos a _ => Sys2Proof.Machine.execCos a s
  | .fastsin a _ => Sys2Proof.Machine.execFastsin a s
  | .fastcos a _ => Sys2Proof.Machine.execFastcos a s
  | .tan a _ => Sys2Proof.Machine.execTan a s
  | .acos a _ => Sys2Proof.Machine.execAcos a s
  | .atan a _ => Sys2Proof.Machine.execAtan a s
  | .atan2 a b => Sys2Proof.Machine.execAtan2 a b s

end Sys2Proof.Machine
end

