-- ==== Sys2Proof/Machine/Ports.lean ====
section
/-! DEFINITION. The ports: the outputs as functions of the state, the transfers, the host's next
levels and the host's handshake rule (10_state.md R19; 70_reset_and_hazards.md R270, R274). -/

namespace Sys2Proof.Machine

/-- `cmd_ready`: 1 exactly when the phase is IDLE and `reset` is low; it does not depend on
`cmd_valid` (R19, H-c of R274). -/
def State.cmd_ready (s : State) : Bool := s.phase == .idle && !s.pins.reset

/-- `rsp_valid`: 1 exactly when the phase is DONE and `reset` is low; it does not depend on
`rsp_ready` (R19, H-e of R274). -/
def State.rsp_valid (s : State) : Bool := s.phase == .done && !s.pins.reset

/-- The response word on `rsp_err` and `rsp_result`, which have a meaning only while `rsp_valid` is 1
(R12, R19, R51; log entry 7). -/
def State.response (s : State) : Option ResponseWord :=
  if s.rsp_valid then some (responseWord s.err_q s.res_q) else none

/-- The command word that is transferred at the coming edge, if one is: `cmd_valid` and `cmd_ready`
are both 1 (R19, R36). -/
def State.commandTransfer (s : State) : Option CommandWord :=
  if s.pins.cmd_valid && s.cmd_ready then some (s.pins.cmd_op ++ s.pins.cmd_a ++ s.pins.cmd_b)
  else none

/-- The response word that is transferred at the coming edge, if one is: `rsp_valid` and `rsp_ready`
are both 1 (R19, R22, R36). -/
def State.responseTransfer (s : State) : Option ResponseWord :=
  if s.pins.rsp_ready then s.response else none

/-- The levels the host drives after the coming edge (log entry 2). -/
def State.nextPins (s : State) : HostPins :=
  match s.plan with
  | [] => s.pins
  | p :: _ => p

/-- The host drives its next levels (log entry 2). -/
def State.hostDrive (s : State) : State := { s with pins := s.nextPins, plan := s.plan.tail }

/-- `q` still offers the command that `p` offers (H-a of R274). -/
def HostPins.keepsOffer (p q : HostPins) : Bool :=
  q.cmd_valid && q.cmd_op == p.cmd_op && q.cmd_a == p.cmd_a && q.cmd_b == p.cmd_b

/-- The host breaks H-a of R274: a command is offered, the unit does not take it at the coming edge,
and the host's next levels change or withdraw it. Levels during reset are no offer (60_exceptions.md
section 14; log entry 4). -/
def State.breaksHandshake (s : State) : Bool :=
  s.pins.cmd_valid && !s.pins.reset && !s.cmd_ready && !s.nextPins.reset &&
    !s.pins.keepsOffer s.nextPins

end Sys2Proof.Machine
end

