-- ==== Sys2Proof/Machine/Execute.lean ====
section
/-! DEFINITION. The EXECUTE step on the latched command and one rising edge of the clock (10_state.md
R20 to R22; 60_exceptions.md R240; 70_reset_and_hazards.md R270, R274, R276). -/

namespace Sys2Proof.Machine

/-- The command word in the command latch (R11, R50). -/
def State.latchedCommand (s : State) : CommandWord := commandWord s.op_q s.a_q s.b_q

/-- EXECUTE: `(err_q, res_q) <- Exec(op_q, a_q, b_q)`, a reserved code answering ILLEGAL_COMMAND (R21,
R240). -/
def execute (s : State) : Host.Outcome State Fault Refusal :=
  match decode s.latchedCommand with
  | .instr i => exec i s
  | .reservedCode _ => illegalCommand s

/-- What the unit does at a rising edge under the present levels: the reset step, or the step its phase
enables, or nothing (R20 to R22, R270, R276). -/
def clockEdge (s : State) : Host.Outcome State Fault Refusal :=
  if s.pins.reset then .next s.resetUnit
  else
    match s.phase with
    | .idle => .next (if s.pins.cmd_valid then s.acceptCommand s.pins.cmd_op s.pins.cmd_a s.pins.cmd_b else s)
    | .busy => if s.wait = 0 then execute s else .next s.tick
    | .done => .next (if s.pins.rsp_ready then s.deliver else s)

/-- After the unit's transition the host drives its next levels. -/
def thenHostDrives : Host.Outcome State Fault Refusal → Host.Outcome State Fault Refusal
  | .next t => .next t.hostDrive
  | .fault f => .fault f
  | .refused r => .refused r

/-- One clock cycle: a host that breaks the handshake is refused (R274, 93_implementation_defined.md
U3); otherwise the unit takes the edge and the host moves on. -/
def clockCycle (s : State) : Host.Outcome State Fault Refusal :=
  if s.breaksHandshake then .refused .handshakeBroken else thenHostDrives (clockEdge s)

/-- The unit holds the command word `cw` and is at its EXECUTE edge: BUSY, no edge left to wait, `reset`
low and nothing offered (log entry 5). -/
def State.holding (s : State) (cw : CommandWord) : State :=
  { s with phase := .busy, op_q := CommandWord.op cw, a_q := CommandWord.a cw, b_q := CommandWord.b cw,
           wait := 0, pins := { s.pins with reset := false, cmd_valid := false } }

end Sys2Proof.Machine
end

