-- ==== Sys2Proof/Machine/Step.lean ====
section
/-! DEFINITION. One step of the machine, one rising edge of `clk`, and the placing of a command where
the next step runs it. -/

namespace Sys2Proof.Machine

/-- One step: one rising edge of the clock (10_state.md section 4; log entry 3). -/
def step (s : State) : Host.Outcome State Fault Refusal := clockCycle s

/-- `s` with the command whose bits are `w` in the command latch, so that the very next step executes it.
The unit fetches nothing (R14, R41): a command enters by ACCEPT, for which this placing stands (log
entry 5). -/
def State.withFetchWord (s : State) (nbits w : Nat) : State := s.holding (wordOfBits nbits w)

end Sys2Proof.Machine
end

