-- ==== Sys2Proof/Safety.lean ====
section
/-! DEFINITION. What the claims speak of beside the machine itself: the invariant of the unit, states
that agree on everything that matters, and the relations by which a rule of the spec fixes a result
(nearest integer, quadrant reduction, table reads, arctangent iteration), written without the
machine's own functions but for the ROM entries. -/

namespace Sys2Proof.Machine

/-- The invariant of the unit. Only a command in the unit has edges left to wait, and never more than
its latency leaves (R276); and in DONE the response latch holds what EXECUTE of the latched command
answers, so executing it again would change nothing (R11, R12, R21, R240). -/
def State.Inv (s : State) : Prop :=
  (s.phase ≠ .busy → s.wait = 0) ∧
  (s.phase = .busy → s.wait ≤ s.extraEdges s.op_q s.a_q s.b_q) ∧
  (s.phase = .done → execute s = .next s)

/-- Two states agree on everything that can matter: the phase, the levels of the ports now and to come,
the latency, the command latch while BUSY and the response latch while DONE (R11, R12, R271;
93_implementation_defined.md U4). -/
def State.SameLive (s t : State) : Prop :=
  s.phase = t.phase ∧ s.pins = t.pins ∧ s.plan = t.plan ∧ s.latency = t.latency ∧
  (s.phase = .busy → s.op_q = t.op_q ∧ s.a_q = t.a_q ∧ s.b_q = t.b_q ∧ s.wait = t.wait) ∧
  (s.phase = .done → s.err_q = t.err_q ∧ s.res_q = t.res_q)

/-- `q` is an integer nearest to `v / 2^k`, the even one on a tie (R6). -/
def NearestEven (q v : Int) (k : Nat) : Prop :=
  2 * |q * 2 ^ k - v| ≤ 2 ^ k ∧ (2 * |q * 2 ^ k - v| = 2 ^ k → q % 2 = 0)

/-- `v` brought into the range of a raw value (R5). -/
def clampRaw (v : Int) : Int := max (-2 ^ 63) (min (2 ^ 63 - 1) v)

/-- The sign flag and the table angle of an angle `Y` with 96 fraction bits: `|Y|` is `k` periods, `q`
quadrants and an offset `u`; odd quadrants are mirrored, the second half period changes the sign
(R194). -/
def QuadrantReduction (Y : Int) (neg : Bool) (t : Nat) : Prop :=
  ∃ k q u : Nat, Y.natAbs = k * (4 * Config.PIO2_Q96) + q * Config.PIO2_Q96 + u ∧
    q ≤ 3 ∧ u < Config.PIO2_Q96 ∧
    t = (if q % 2 = 1 then Config.PIO2_Q96 - u else u) / 2 ^ 64 ∧
    t ≤ Config.PI_OVER_2 ∧
    neg = ((decide (Y < 0)) != (decide (2 ≤ q)))

/-- `v` is the interpolated table value for the table angle `t`: the entry at the index, and unless `t`
lies on it, the rounded part `e` of the way to the next entry. The indices read are in range (R31,
R196). -/
def InterpolatedEntry (t : Nat) (v : Int) : Prop :=
  ∃ idx rem : Nat, t * 2 ^ 17 = idx * Config.PI_OVER_2 + rem ∧ rem < Config.PI_OVER_2 ∧
    idx ≤ 131072 ∧
    ((rem = 0 ∧ v = romSin idx) ∨
      (rem ≠ 0 ∧ idx + 1 ≤ 131072 ∧ ∃ e : Int, v = romSin idx + e ∧
        e * Config.PI_OVER_2 ≤ (romSin (idx + 1) - romSin idx) * rem + 0xC90FDAA2 ∧
        (romSin (idx + 1) - romSin idx) * rem + 0xC90FDAA2 < (e + 1) * Config.PI_OVER_2))

/-- `v` is the entry of the coarse table nearest to the table angle `t`: its index is in range and
`t * 2^14` lies within half a step of it (R31, R199). -/
def CoarseEntry (t : Nat) (v : Int) : Prop :=
  ∃ j : Nat, j ≤ 16384 ∧ v = romSin (8 * j) ∧
    j * Config.PI_OVER_2 ≤ t * 2 ^ 14 + 0xC90FDAA2 ∧
    t * 2 ^ 14 + 0xC90FDAA2 < (j + 1) * Config.PI_OVER_2

/-- `v` is the sine of an angle `Y` with 96 fraction bits, by the reduction and the table read `entry`
(R195). -/
def SineBy (entry : Nat → Int → Prop) (Y v : Int) : Prop :=
  ∃ (neg : Bool) (t : Nat) (w : Int), QuadrantReduction Y neg t ∧ entry t w ∧
    v = if neg then -w else w

/-- `v` is the first-quadrant angle of the point `(x, y)`: zero on the x axis, `PI_OVER_2` on the y axis,
else the rounded and clamped sum that the 40 vectoring iterations reach from the point scaled to 60
bits (R204). -/
def VectoringAngle (x y : Nat) (v : Int) : Prop :=
  (y = 0 ∧ v = 0) ∨
  (y ≠ 0 ∧ x = 0 ∧ v = 0x1921FB544) ∨
  (y ≠ 0 ∧ x ≠ 0 ∧ ∃ (p : Nat) (X Y A : Nat → Int),
    2 ^ p ≤ 2 * max x y ∧ max x y < 2 ^ p ∧
    (p ≤ 60 → X 0 = x * 2 ^ (60 - p) ∧ Y 0 = y * 2 ^ (60 - p)) ∧
    (60 < p → X 0 = x / 2 ^ (p - 60) ∧ Y 0 = y / 2 ^ (p - 60)) ∧
    A 0 = 0 ∧
    (∀ i < 40, 0 ≤ Y i →
      X (i + 1) = X i + Y i / 2 ^ i ∧ Y (i + 1) = Y i - X i / 2 ^ i ∧ A (i + 1) = A i + romAtan i) ∧
    (∀ i < 40, Y i < 0 →
      X (i + 1) = X i - Y i / 2 ^ i ∧ Y (i + 1) = Y i + X i / 2 ^ i ∧ A (i + 1) = A i - romAtan i) ∧
    v = max 0 (min 0x1921FB544 ((A 40 + 2 ^ 28) / 2 ^ 29)))

end Sys2Proof.Machine
end

