-- ==== Sys2Proof/Certificates/Slice0/Obligations.lean ====
section
/-! DEFINITION. The statements for the provers, each a property of the machine that a rule of the spec
gives. `Sys2Proof.Machine.exec i s` is EXECUTE of the command `i`; every statement of a result gives the
whole next state, so it is the command's frame as well: the phase and the response latch are written
and nothing else. -/

open Sys2Proof Sys2Proof.Machine

/-! ### Encoding -/

/-- Decoding and encoding agree on every command word and every command, in both directions: no bit of a
word is dropped and no two commands share a word (30_encoding.md sections 1 and 4). -/
def Obligations.DecodeIsInverseOfEncode : Prop :=
  ∀ (cw : CommandWord) (i : Instr), decode cw = .instr i ↔ encode i = cw

/-- The decoder refuses exactly the words whose operation code is one of the reserved codes of R56, and
names the code. -/
def Obligations.DecoderRefusesExactlyTheReservedCodes : Prop :=
  ∀ (op : OpCode) (a b : Word), decode (commandWord op a b) = .reservedCode op ↔
    (5 ≤ op.toNat ∧ op.toNat ≤ 0x0F) ∨ (0x18 ≤ op.toNat ∧ op.toNat ≤ 0x1F) ∨
    (0x28 ≤ op.toNat ∧ op.toNat ≤ 0x2F) ∨ (0x36 ≤ op.toNat ∧ op.toNat ≤ 0x3F) ∨
    (0x45 ≤ op.toNat ∧ op.toNat ≤ 0x4F) ∨ 0x58 ≤ op.toNat

/-- A few command words written out by hand from R50 and R55 decode to the commands they stand for. -/
def Obligations.WrittenWordsDecode : Prop :=
  decode 0x2200000003000000000000000300000000#136 = .instr (.mul 0x300000000 0x300000000) ∧
  decode 0x4000000002000000000000000000000000#136 = .instr (.sqrt 0x200000000 0) ∧
  decode 0x02FFFFFFFE800000000000000000000001#136 = .instr (.toint 0xFFFFFFFE80000000 1) ∧
  decode 0x15FFFFFFFFFFFFFFFFFFFFFFFFFFFFFFFF#136 =
    .instr (.cpio2 0xFFFFFFFFFFFFFFFF 0xFFFFFFFFFFFFFFFF) ∧
  decode 0x318000000000000000123456789ABCDEF0#136 = .instr (.abs 0x8000000000000000 0x123456789ABCDEF0) ∧
  decode 0x5700000003000000000000000400000000#136 = .instr (.atan2 0x300000000 0x400000000) ∧
  decode 0x9900000001000000000000000200000000#136 = .reservedCode 0x99

/-- An operand field that R55 marks unused is ignored: two commands with the same code that agree on the
fields the code uses are executed alike (R57). -/
def Obligations.UnusedOperandFieldsAreIgnored : Prop :=
  ∀ (i j : Instr) (s : State), i.opcode = j.opcode →
    (¬ (0x10 ≤ i.opcode.toNat ∧ i.opcode.toNat ≤ 0x17) → i.opA = j.opA) →
    (i.opcode.toNat ∈ [0x20, 0x21, 0x22, 0x23, 0x24, 0x26, 0x27, 0x44, 0x57] → i.opB = j.opB) →
    exec i s = exec j s

/-! ### Steps and ports -/

/-- A step runs the decoded command: at the EXECUTE edge of a BUSY unit, with `reset` low and a host that
keeps the handshake, the step is `exec` of the command in the latch, after which the host drives its
next levels (R21). That the host's levels stand in the state, and the wait register, are the model's own
(log entries 2 and 3). -/
def Obligations.StepRunsTheLatchedCommand : Prop :=
  ∀ (s : State) (i : Instr), s.phase = .busy → s.wait = 0 → s.pins.reset = false →
    s.breaksHandshake = false → decode (commandWord s.op_q s.a_q s.b_q) = .instr i →
    ∃ t, exec i s = .next t ∧ step s = .next { t with pins := s.nextPins, plan := s.plan.tail }

/-- The placing of a command word where the next step runs it does so, for every word of a command and
every state; the levels the host drives next are those of `s` with `reset` low and nothing offered (log
entry 5). -/
def Obligations.PlacedCommandRunsAtTheNextStep : Prop :=
  ∀ (s : State) (i : Instr), ∃ t,
    exec i (s.withFetchWord 136 (encode i).toNat) = .next t ∧
    step (s.withFetchWord 136 (encode i).toNat) = .next t.hostDrive

/-- ACCEPT: in IDLE with `reset` low, an offered command is latched whole and the phase becomes BUSY;
the response latch keeps its bits (R20). The wait register and the host's levels are the model's own
(log entries 2 and 3). -/
def Obligations.AcceptLatchesTheOfferedCommand : Prop :=
  ∀ s : State, s.phase = .idle → s.pins.reset = false → s.pins.cmd_valid = true →
    step s = .next { s with
      phase := .busy, op_q := s.pins.cmd_op, a_q := s.pins.cmd_a, b_q := s.pins.cmd_b,
      wait := s.extraEdges s.pins.cmd_op s.pins.cmd_a s.pins.cmd_b,
      pins := s.nextPins, plan := s.plan.tail }

/-- DELIVER: in DONE with `reset` low and `rsp_ready` high, the response word is transferred and the phase
becomes IDLE; nothing else of the unit changes (R22). The host's levels are the model's own (log entry
2). -/
def Obligations.DeliverHandsOverTheResponse : Prop :=
  ∀ s : State, s.phase = .done → s.pins.reset = false → s.pins.rsp_ready = true →
    s.breaksHandshake = false →
    s.responseTransfer = some (s.err_q ++ s.res_q) ∧
    step s = .next { s with phase := .idle, pins := s.nextPins, plan := s.plan.tail }

/-- Reset: whatever the phase, an edge with `reset` high is the reset step; meanwhile both handshake
outputs are 0, so nothing is accepted or delivered; afterwards the phase is IDLE and a command that was
in the unit has no response (R270). The latency and the host's levels are the model's own (log entries 2
and 3); of the latches, which R271 leaves open, nothing is said. -/
def Obligations.ResetStepWhateverThePhase : Prop :=
  ∀ s : State, s.pins.reset = true →
    s.cmd_ready = false ∧ s.rsp_valid = false ∧
    s.commandTransfer = none ∧ s.responseTransfer = none ∧
    ∃ t, step s = .next t ∧ t.phase = .idle ∧ t.response = none ∧ t.latency = s.latency ∧
      t.pins = s.nextPins ∧ t.plan = s.plan.tail

/-- While the host does not take a response, the unit offers it unchanged (H-d of R274), unless the next
cycle is one of reset. The host's levels to come are the model's own (log entry 2). -/
def Obligations.OfferedResponseIsHeld : Prop :=
  ∀ s t : State, s.phase = .done → s.pins.reset = false → s.pins.rsp_ready = false →
    step s = .next t →
    t.phase = .done ∧ t.err_q = s.err_q ∧ t.res_q = s.res_q ∧
    (t.pins.reset = false → t.response = some (s.err_q ++ s.res_q))

/-- Every step has an answer, and the only refusal is the one the spec asks for: an offer that is neither
taken nor kept (R240, R274, U3). Which levels count as an offer, and that the step is where a host is
refused, is the model's choice (log entry 4). -/
def Obligations.StepIsRefusedOnlyForABrokenOffer : Prop :=
  ∀ s : State,
    ((∃ t, step s = .next t) ∨ step s = .refused .handshakeBroken) ∧
    (step s = .refused .handshakeBroken ↔
      s.pins.reset = false ∧ s.pins.cmd_valid = true ∧ s.phase ≠ .idle ∧
      s.nextPins.reset = false ∧
      ¬ (s.nextPins.cmd_valid = true ∧ s.nextPins.cmd_op = s.pins.cmd_op ∧
        s.nextPins.cmd_a = s.pins.cmd_a ∧ s.nextPins.cmd_b = s.pins.cmd_b))

/-- The latches are written by the steps R11 and R12 name and by no other: outside reset, the command latch
changes only at an edge with a command transfer, and the response latch only at the EXECUTE edge; the
latency, the model's own field (log entry 3), never changes. -/
def Obligations.LatchesAreWrittenOnlyByTheirSteps : Prop :=
  ∀ s t : State, step s = .next t →
    t.latency = s.latency ∧
    (s.pins.reset = false → s.commandTransfer = none →
      t.op_q = s.op_q ∧ t.a_q = s.a_q ∧ t.b_q = s.b_q) ∧
    (s.pins.reset = false → ¬ (s.phase = .busy ∧ s.wait = 0) →
      t.err_q = s.err_q ∧ t.res_q = s.res_q)

/-! ### The whole command set -/

/-- Every command is a pure function: for each command there is one response, whatever the state, and
executing it changes the response latch and the phase and nothing else (R4). -/
def Obligations.ResponseDependsOnlyOnTheCommand : Prop :=
  ∀ i : Instr, ∃ (e : ErrCode) (r : Word), ∀ s : State,
    exec i s = .next { s with phase := .done, err_q := e, res_q := r }

/-- The complete list of causes of errors (R242): a command answers DIV_BY_ZERO or DOMAIN exactly under the
conditions listed, and a defined command never answers ILLEGAL_COMMAND. The row of TAN reads the raw
result of COS. -/
def Obligations.ErrorCausesAreExactlyTheListed : Prop :=
  ∀ (i : Instr) (s t : State), exec i s = .next t →
    (t.err_q = 1 ↔ match i with
      | .div _ b => b = 0
      | .mod _ b => b = 0
      | .pow a b => a = 0 ∧ b.toInt < 0
      | .tan a _ => exec (.cos a 0) s = .next { s with phase := .done, err_q := 0, res_q := 0 }
      | _ => False) ∧
    (t.err_q = 2 ↔ match i with
      | .sqrt a _ => a.toInt < 0
      | .log2 a _ => a.toInt ≤ 0
      | .ln a _ => a.toInt ≤ 0
      | .acos a _ => a.toInt < -2 ^ 32 ∨ 2 ^ 32 < a.toInt
      | .pow a b => a.toInt < 0 ∧ b ≠ 0
      | .fromf64 a _ => a.extractLsb' 52 11 = 2047#11 ∧ a.extractLsb' 0 52 ≠ 0
      | _ => False) ∧
    t.err_q ≠ 3

/-- On an error the result word is zero, for every command and for every reserved code (R243). -/
def Obligations.ErrorCarriesTheZeroWord : Prop :=
  ∀ s t : State, execute s = .next t → t.err_q ≠ 0 → t.res_q = 0

/-- A reserved code is executed like any command and answers ILLEGAL_COMMAND with a zero result; the operands
are ignored and no other state changes (R56, R240). -/
def Obligations.ReservedCodeAnswersIllegalCommand : Prop :=
  ∀ s : State,
    ((5 ≤ s.op_q.toNat ∧ s.op_q.toNat ≤ 0x0F) ∨ (0x18 ≤ s.op_q.toNat ∧ s.op_q.toNat ≤ 0x1F) ∨
      (0x28 ≤ s.op_q.toNat ∧ s.op_q.toNat ≤ 0x2F) ∨ (0x36 ≤ s.op_q.toNat ∧ s.op_q.toNat ≤ 0x3F) ∨
      (0x45 ≤ s.op_q.toNat ∧ s.op_q.toNat ≤ 0x4F) ∨ 0x58 ≤ s.op_q.toNat) →
    execute s = .next { s with phase := .done, err_q := 3, res_q := 0 }

/-! ### Runs -/

/-- The invariant holds at reset. Two of its three clauses speak of the wait register and the latency, the
model's own fields (log entry 3), and the third of the response latch in DONE. The values of the latches and of
the wait register at reset are the model's choice (log entry 1); the clauses hold there because the phase is
IDLE and the wait register is zero. -/
def Obligations.InvariantHoldsAtReset : Prop := State.reset.Inv

/-- Every step keeps the invariant, from every state that has it. Its first two clauses, that only a command in
the unit waits and never longer than its latency leaves, speak of the wait register and the latency, the model's
own fields (log entry 3; that the reset step clears the wait register is log entry 1). Its third clause, that in
DONE the response latch holds what EXECUTE of the latched command answers, is about the registers of R11 and
R12. -/
def Obligations.StepKeepsTheInvariant : Prop :=
  ∀ s t : State, s.Inv → step s = .next t → t.Inv

/-- A response that the unit offers is well formed: an error carries no value (R51, R243), from every state
with the invariant. -/
def Obligations.OfferedResponseIsWellFormed : Prop :=
  ∀ (s : State) (rw : ResponseWord), s.Inv → s.response = some rw →
    ResponseWord.wellFormed rw = true

/-- The bits of the latches that the present phase does not use cannot be observed: two states that agree
on the rest show the same outputs and make the same transfers, and their steps agree again (R23, R271,
U4). -/
def Obligations.UnusedLatchesCannotBeObserved : Prop :=
  ∀ s t : State, s.SameLive t →
    s.cmd_ready = t.cmd_ready ∧ s.rsp_valid = t.rsp_valid ∧ s.response = t.response ∧
    s.commandTransfer = t.commandTransfer ∧ s.responseTransfer = t.responseTransfer ∧
    (∀ s', step s = .next s' → ∃ t', step t = .next t' ∧ s'.SameLive t') ∧
    (∀ r, step s = .refused r → step t = .refused r)

/-- An accepted command reaches DONE: in BUSY with `reset` low and a host whose levels stay as they are, the
response stands in the latch after exactly `wait + 1` edges, and it is what EXECUTE of the latched
command answers (R21, R276). The wait register and the host's levels are the model's own (log entries 2
and 3). -/
def Obligations.BusyUnitAnswersAfterItsWait : Prop :=
  ∀ s : State, s.phase = .busy → s.pins.reset = false → s.plan = [] →
    ∃ (e : ErrCode) (r : Word),
      Sys2Proof.core.run (s.wait + 1) s =
        .next { s with phase := .done, wait := 0, err_q := e, res_q := r } ∧
      execute { s with wait := 0 } =
        .next { s with phase := .done, wait := 0, err_q := e, res_q := r }

/-- One whole transaction with a host whose levels stay as they are: the offered command is accepted at the
first edge; after each of the following edges but the `LATENCY`-th the unit is still BUSY; after the
`LATENCY`-th the response stands on the ports, and it is what EXECUTE answers for the command that was
offered (R19 to R22, R276). The latency as data and the host's levels are the model's own (log entries 2
and 3). -/
def Obligations.TransactionAnswersAfterItsLatency : Prop :=
  ∀ s : State, s.phase = .idle → s.pins.reset = false → s.pins.cmd_valid = true → s.plan = [] →
    (∀ j < s.latencyOf s.pins.cmd_op s.pins.cmd_a s.pins.cmd_b, ∃ t,
      Sys2Proof.core.run (1 + j) s = .next t ∧ t.phase = .busy ∧ t.response = none) ∧
    ∃ t, Sys2Proof.core.run (1 + s.latencyOf s.pins.cmd_op s.pins.cmd_a s.pins.cmd_b) s = .next t ∧
      t.phase = .done ∧ t.response = some (t.err_q ++ t.res_q) ∧
      t.op_q = s.pins.cmd_op ∧ t.a_q = s.pins.cmd_a ∧ t.b_q = s.pins.cmd_b ∧
      t.pins = s.pins ∧ execute t = .next t

/-- History independence: two units, or one unit at two times, that are offered the same command word give
the same response bit for bit, whatever they did before and however long each takes (R39). The hosts keep
their levels; the levels and the latency as data are the model's own (log entries 2 and 3). -/
def Obligations.SameCommandSameResponse : Prop :=
  ∀ s t : State, s.phase = .idle → t.phase = .idle → s.plan = [] → t.plan = [] →
    s.pins.reset = false → t.pins.reset = false →
    s.pins.cmd_valid = true → t.pins.cmd_valid = true →
    s.pins.cmd_op = t.pins.cmd_op → s.pins.cmd_a = t.pins.cmd_a → s.pins.cmd_b = t.pins.cmd_b →
    ∃ s' t' : State,
      Sys2Proof.core.run (1 + s.latencyOf s.pins.cmd_op s.pins.cmd_a s.pins.cmd_b) s = .next s' ∧
      Sys2Proof.core.run (1 + t.latencyOf t.pins.cmd_op t.pins.cmd_a t.pins.cmd_b) t = .next t' ∧
      s'.response.isSome = true ∧ s'.response = t'.response

/-! ### Representation and conversions -/

/-- FROMRAW passes its operand through and the eight constant commands answer their words, whatever the
operands (R70 to R78). -/
def Obligations.FromRawAndConstantsAnswerTheirWords : Prop :=
  ∀ (a b : Word) (s : State),
    exec (.fromraw a b) s = .next { s with phase := .done, err_q := 0, res_q := a } ∧
    exec (.czero a b) s = .next { s with phase := .done, err_q := 0, res_q := 0 } ∧
    exec (.cone a b) s = .next { s with phase := .done, err_q := 0, res_q := 0x0000000100000000 } ∧
    exec (.cmin a b) s = .next { s with phase := .done, err_q := 0, res_q := 0x8000000000000000 } ∧
    exec (.cmax a b) s = .next { s with phase := .done, err_q := 0, res_q := 0x7FFFFFFFFFFFFFFF } ∧
    exec (.cpi a b) s = .next { s with phase := .done, err_q := 0, res_q := 0x00000003243F6A88 } ∧
    exec (.cpio2 a b) s = .next { s with phase := .done, err_q := 0, res_q := 0x00000001921FB544 } ∧
    exec (.cpi2 a b) s = .next { s with phase := .done, err_q := 0, res_q := 0x00000006487ED511 } ∧
    exec (.cprec a b) s = .next { s with phase := .done, err_q := 0, res_q := 1 }

/-- FROMINT keeps the low 32 bits of the integer as the integer field and clears the fraction (R90). -/
def Obligations.FromIntKeepsTheLowBits : Prop :=
  ∀ (a b : Word) (s : State),
    exec (.fromint a b) s =
      .next { s with phase := .done, err_q := 0, res_q := a.extractLsb' 0 32 ++ 0#32 }

/-- TOINT answers the stored integer field, sign-extended: the floor of the value (R91). -/
def Obligations.ToIntSignExtendsTheIntegerField : Prop :=
  ∀ (a b : Word) (s : State),
    exec (.toint a b) s =
      .next { s with phase := .done, err_q := 0, res_q := (a.extractLsb' 32 32).signExtend 64 }

/-- The integer round trips: TOINT of FROMINT is the low 32 bits sign-extended, FROMINT of TOINT is FLOOR
(R90, R91, R143). -/
def Obligations.IntegerRoundTrips : Prop :=
  ∀ (n b c : Word) (s : State), ∃ m k f : Word,
    exec (.fromint n b) s = .next { s with phase := .done, err_q := 0, res_q := m } ∧
    exec (.toint m c) s =
      .next { s with phase := .done, err_q := 0, res_q := (n.extractLsb' 0 32).signExtend 64 } ∧
    exec (.toint n b) s = .next { s with phase := .done, err_q := 0, res_q := k } ∧
    exec (.fromint k c) s = .next { s with phase := .done, err_q := 0, res_q := f } ∧
    exec (.floor n b) s = .next { s with phase := .done, err_q := 0, res_q := f }

/-- FROMF64 (R92). With the sign, the exponent and the fraction of the pattern: a NaN answers DOMAIN, an
infinity clamps, a zero or a subnormal gives 0, and any other number gives the clamped nearest integer,
ties to even, to its value times `2^32`. -/
def Obligations.FromF64RoundsAndClamps : Prop :=
  ∀ (a b : Word) (s : State),
    let neg := a.getLsbD 63
    let E := (a.extractLsb' 52 11).toNat
    let M := (a.extractLsb' 0 52).toNat
    (E = 2047 → M ≠ 0 →
      exec (.fromf64 a b) s = .next { s with phase := .done, err_q := 2, res_q := 0 }) ∧
    (E = 2047 → M = 0 →
      exec (.fromf64 a b) s = .next { s with
        phase := .done, err_q := 0,
        res_q := if neg then 0x8000000000000000 else 0x7FFFFFFFFFFFFFFF }) ∧
    (E = 0 → exec (.fromf64 a b) s = .next { s with phase := .done, err_q := 0, res_q := 0 }) ∧
    (1 ≤ E → E ≤ 2046 → ∃ (n : Int) (r : Word),
      exec (.fromf64 a b) s = .next { s with phase := .done, err_q := 0, res_q := r } ∧
      (1043 ≤ E → n = (2 ^ 52 + M) * 2 ^ (E - 1043)) ∧
      (E < 1043 → NearestEven n (2 ^ 52 + M) (1043 - E)) ∧
      r.toInt = clampRaw (if neg then -n else n))

/-- TOF64 (R93). Zero gives the zero word. Otherwise, with `p` the position of the highest bit of the
magnitude, the result has the sign of the operand, and its exponent and fraction are those of the
significand `q` nearest to the magnitude at 53 bits, ties to even, renormalised if rounding carries
out. -/
def Obligations.ToF64RoundsToNearestEven : Prop :=
  ∀ (a b : Word) (s : State), ∃ r : Word,
    exec (.tof64 a b) s = .next { s with phase := .done, err_q := 0, res_q := r } ∧
    (a = 0 → r = 0) ∧
    (a ≠ 0 → ∃ p q : Nat, 2 ^ p ≤ a.toInt.natAbs ∧ a.toInt.natAbs < 2 ^ (p + 1) ∧
      (p ≤ 52 → q = a.toInt.natAbs * 2 ^ (52 - p)) ∧
      (52 < p → NearestEven q a.toInt.natAbs (p - 52)) ∧
      r.getLsbD 63 = decide (a.toInt < 0) ∧
      (q < 2 ^ 53 → (r.extractLsb' 52 11).toNat = p + 991 ∧ (r.extractLsb' 0 52).toNat = q - 2 ^ 52) ∧
      (2 ^ 53 ≤ q → (r.extractLsb' 52 11).toNat = p + 992 ∧ (r.extractLsb' 0 52).toNat = 0))

/-- The binary64 round trip is exact for every raw value of at most 53 bits of magnitude (R92, R93). -/
def Obligations.SmallValuesSurviveTheF64RoundTrip : Prop :=
  ∀ (a b c : Word) (s : State), a.toInt.natAbs ≤ 2 ^ 53 → ∃ r : Word,
    exec (.tof64 a b) s = .next { s with phase := .done, err_q := 0, res_q := r } ∧
    exec (.fromf64 r c) s = .next { s with phase := .done, err_q := 0, res_q := a }

/-! ### Arithmetic -/

/-- ADD, SUB and NEG form the exact sum, difference and negation and saturate it (R110, R111, R115). -/
def Obligations.AddSubNegSaturateTheExactResult : Prop :=
  ∀ (a b : Word) (s : State), ∃ sum diff neg : Word,
    exec (.add a b) s = .next { s with phase := .done, err_q := 0, res_q := sum } ∧
    exec (.sub a b) s = .next { s with phase := .done, err_q := 0, res_q := diff } ∧
    exec (.neg a b) s = .next { s with phase := .done, err_q := 0, res_q := neg } ∧
    sum.toInt = clampRaw (a.toInt + b.toInt) ∧
    diff.toInt = clampRaw (a.toInt - b.toInt) ∧
    neg.toInt = clampRaw (-a.toInt)

/-- MUL answers the saturated integer nearest to the exact product over `2^32`, ties to even (R112). -/
def Obligations.MulRoundsToNearestEvenThenSaturates : Prop :=
  ∀ (a b : Word) (s : State), ∃ (q : Int) (r : Word),
    exec (.mul a b) s = .next { s with phase := .done, err_q := 0, res_q := r } ∧
    NearestEven q (a.toInt * b.toInt) 32 ∧ r.toInt = clampRaw q

/-- DIV answers DIV_BY_ZERO for a zero divisor, else the saturated quotient of `a * 2^32` by `b` truncated
toward zero (R113). -/
def Obligations.DivTruncatesTowardZeroThenSaturates : Prop :=
  ∀ (a b : Word) (s : State),
    (b = 0 → exec (.div a b) s = .next { s with phase := .done, err_q := 1, res_q := 0 }) ∧
    (b ≠ 0 → ∃ r : Word,
      exec (.div a b) s = .next { s with phase := .done, err_q := 0, res_q := r } ∧
      r.toInt = clampRaw ((a.toInt * 2 ^ 32).tdiv b.toInt))

/-- MOD answers DIV_BY_ZERO for a zero divisor, else the exact truncating remainder, smaller than the divisor
and with the sign of the dividend or zero (R114). -/
def Obligations.ModIsTheExactTruncatingRemainder : Prop :=
  ∀ (a b : Word) (s : State),
    (b = 0 → exec (.mod a b) s = .next { s with phase := .done, err_q := 1, res_q := 0 }) ∧
    (b ≠ 0 → ∃ r : Word,
      exec (.mod a b) s = .next { s with phase := .done, err_q := 0, res_q := r } ∧
      r.toInt = a.toInt - (a.toInt.tdiv b.toInt) * b.toInt ∧
      |r.toInt| < |b.toInt| ∧ 0 ≤ r.toInt * a.toInt)

/-- CMP, EQ and SIGN answer unscaled integers: the order of the signed values, equality of all 64 bits, and
the order against zero (R116, R117, R140). -/
def Obligations.CompareEqualSignAnswerUnscaledIntegers : Prop :=
  ∀ (a b : Word) (s : State), ∃ c e g : Word,
    exec (.cmp a b) s = .next { s with phase := .done, err_q := 0, res_q := c } ∧
    exec (.eq a b) s = .next { s with phase := .done, err_q := 0, res_q := e } ∧
    exec (.sign a b) s = .next { s with phase := .done, err_q := 0, res_q := g } ∧
    (a.toInt < b.toInt → c = 0xFFFFFFFFFFFFFFFF) ∧ (a = b → c = 0) ∧ (b.toInt < a.toInt → c = 1) ∧
    (a = b → e = 1) ∧ (a ≠ b → e = 0) ∧
    (a.getLsbD 63 = true → g = 0xFFFFFFFFFFFFFFFF) ∧ (a = 0 → g = 0) ∧
    (a.getLsbD 63 = false → a ≠ 0 → g = 1)

/-- Identities of the arithmetic core. From R119, which the spec marks as its own inference: neutral elements,
zero, commutativity, and the signed fraction as the remainder by ONE. From the corner cases of R113: the
quotient of a nonzero word by itself is ONE. From R111 and the identity I5 of 95_test_vectors.md: SUB is ADD
of the NEG wherever the subtrahend is not the smallest value. -/
def Obligations.ArithmeticIdentitiesHold : Prop :=
  ∀ (a b : Word) (s : State),
    let ok := fun r : Word => Host.Outcome.next (φ := Fault) (ρ := Refusal)
      { s with phase := .done, err_q := 0, res_q := r }
    exec (.add a 0) s = ok a ∧ exec (.sub a 0) s = ok a ∧ exec (.sub a a) s = ok 0 ∧
    exec (.mul a 0x100000000) s = ok a ∧ exec (.mul a 0) s = ok 0 ∧
    exec (.div a 0x100000000) s = ok a ∧ (b ≠ 0 → exec (.div 0 b) s = ok 0) ∧
    (b ≠ 0 → exec (.mod 0 b) s = ok 0) ∧
    (∃ f : Word, exec (.mod a 0x100000000) s = ok f ∧
      f.toInt = a.toInt - a.toInt.tdiv (2 ^ 32) * 2 ^ 32) ∧
    (a ≠ 0 → exec (.div a a) s = ok 0x100000000) ∧
    exec (.add a b) s = exec (.add b a) s ∧ exec (.mul a b) s = exec (.mul b a) s ∧
    (b ≠ 0x8000000000000000 → ∃ n : Word, exec (.neg b 0) s = ok n ∧
      exec (.sub a b) s = exec (.add a n) s)

/-! ### Rounding and sign -/

/-- ABS saturates and FASTABS does not: ABS answers the clamped absolute value, FASTABS the two's-complement
negation of a negative operand, so that both differ on the smallest value only (R141, R142). -/
def Obligations.AbsSaturatesAndFastAbsWraps : Prop :=
  ∀ (a b : Word) (s : State), ∃ r f : Word,
    exec (.abs a b) s = .next { s with phase := .done, err_q := 0, res_q := r } ∧
    exec (.fastabs a b) s = .next { s with phase := .done, err_q := 0, res_q := f } ∧
    r.toInt = clampRaw |a.toInt| ∧
    f = (if a.toInt < 0 then -a else a) ∧
    (r = f ↔ a ≠ 0x8000000000000000) ∧
    (a = 0x8000000000000000 → f = 0x8000000000000000)

/-- FLOOR keeps the integer field and clears the fraction field (R143). CEIL leaves an integer value, else goes
to the next one, saturating (R144). ROUND goes to the nearest integer value, ties to the even one,
saturating (R145). -/
def Obligations.FloorCeilRoundAnswerIntegerValues : Prop :=
  ∀ (a b : Word) (s : State), ∃ (c r : Word) (k : Int),
    exec (.floor a b) s =
      .next { s with phase := .done, err_q := 0, res_q := a.extractLsb' 32 32 ++ 0#32 } ∧
    exec (.ceil a b) s = .next { s with phase := .done, err_q := 0, res_q := c } ∧
    exec (.round a b) s = .next { s with phase := .done, err_q := 0, res_q := r } ∧
    (a.extractLsb' 0 32 = 0#32 → c = a) ∧
    (a.extractLsb' 0 32 ≠ 0#32 → c.toInt = clampRaw ((a.toInt / 2 ^ 32 + 1) * 2 ^ 32)) ∧
    NearestEven k a.toInt 32 ∧ r.toInt = clampRaw (k * 2 ^ 32)

/-- The properties of FLOOR, CEIL and ROUND that R146 lists (the spec marks it as its own inference): they
bracket the operand, lie one apart, are idempotent and monotone, ROUND is one of the other two, and CEIL is
FLOOR of the negation negated outside the saturating band. -/
def Obligations.RoundingBracketsTheOperand : Prop :=
  ∀ s : State, ∃ F C R N : Word → Word,
    (∀ a b, exec (.floor a b) s = .next { s with phase := .done, err_q := 0, res_q := F a }) ∧
    (∀ a b, exec (.ceil a b) s = .next { s with phase := .done, err_q := 0, res_q := C a }) ∧
    (∀ a b, exec (.round a b) s = .next { s with phase := .done, err_q := 0, res_q := R a }) ∧
    (∀ a b, exec (.neg a b) s = .next { s with phase := .done, err_q := 0, res_q := N a }) ∧
    (∀ a, (F a).toInt ≤ a.toInt ∧ a.toInt ≤ (C a).toInt ∧
      (F a).toInt ≤ (R a).toInt ∧ (R a).toInt ≤ (C a).toInt ∧ (R a = F a ∨ R a = C a)) ∧
    (∀ a, a.extractLsb' 0 32 = 0#32 → C a = F a) ∧
    (∀ a, a.extractLsb' 0 32 ≠ 0#32 → a.toInt < 0x7FFFFFFF00000000 →
      (C a).toInt - (F a).toInt = 2 ^ 32) ∧
    (∀ a, a ≠ 0x8000000000000000 → a.toInt ≤ 0x7FFFFFFF00000000 → C a = N (F (N a))) ∧
    (∀ a, 0x7FFFFFFF00000000 < a.toInt →
      C a = 0x7FFFFFFFFFFFFFFF ∧ (C a).toInt - (F a).toInt = 2 ^ 32 - 1) ∧
    (∀ a, F (F a) = F a ∧ C (C a) = C a ∧ R (R a) = R a) ∧
    (∀ a b, a.toInt ≤ b.toInt → (F a).toInt ≤ (F b).toInt ∧ (C a).toInt ≤ (C b).toInt ∧
      (R a).toInt ≤ (R b).toInt)

/-! ### Roots, logarithms and powers -/

/-- The digit-by-digit algorithm computes the integer square root of every radicand below `2^96` (R8,
R161). -/
def Obligations.DigitByDigitRootIsTheIntegerRoot : Prop :=
  ∀ r : Nat, r < 2 ^ 96 → isqrt r * isqrt r ≤ r ∧ r < (isqrt r + 1) * (isqrt r + 1)

/-- SQRT answers DOMAIN for a negative operand, else the floor of the root at doubled precision (R160). -/
def Obligations.SqrtIsTheFloorOfTheRoot : Prop :=
  ∀ (a b : Word) (s : State),
    (a.toInt < 0 → exec (.sqrt a b) s = .next { s with phase := .done, err_q := 2, res_q := 0 }) ∧
    (0 ≤ a.toInt → ∃ r : Word,
      exec (.sqrt a b) s = .next { s with phase := .done, err_q := 0, res_q := r } ∧
      r.toNat < 2 ^ 48 ∧
      (r.toNat : Int) * r.toNat ≤ a.toInt * 2 ^ 32 ∧
      a.toInt * 2 ^ 32 < ((r.toNat : Int) + 1) * (r.toNat + 1))

/-- SQRT never decreases when a non-negative operand increases (R162, which the spec marks as its own
inference). -/
def Obligations.SqrtIsMonotone : Prop :=
  ∀ (a a' b : Word) (s : State), 0 ≤ a.toInt → a.toInt ≤ a'.toInt → ∃ r r' : Word,
    exec (.sqrt a b) s = .next { s with phase := .done, err_q := 0, res_q := r } ∧
    exec (.sqrt a' b) s = .next { s with phase := .done, err_q := 0, res_q := r' } ∧
    r.toInt ≤ r'.toInt

/-- LOG2 (R163): DOMAIN unless the operand is positive; else the integer part from the highest bit `p`, and 32
fraction bits, each the one that squaring the 62-bit mantissa carries out. -/
def Obligations.LogTwoDecomposesBitByBit : Prop :=
  ∀ (a b : Word) (s : State),
    (a.toInt ≤ 0 → exec (.log2 a b) s = .next { s with phase := .done, err_q := 2, res_q := 0 }) ∧
    (0 < a.toInt → ∃ (r : Word) (p : Nat) (z bit : Nat → Nat),
      exec (.log2 a b) s = .next { s with phase := .done, err_q := 0, res_q := r } ∧
      2 ^ p ≤ a.toNat ∧ a.toNat < 2 ^ (p + 1) ∧ z 0 = a.toNat * 2 ^ (62 - p) ∧
      (∀ i < 32, (2 ^ 63 ≤ z i * z i / 2 ^ 62 → bit i = 1 ∧ z (i + 1) = z i * z i / 2 ^ 62 / 2) ∧
        (z i * z i / 2 ^ 62 < 2 ^ 63 → bit i = 0 ∧ z (i + 1) = z i * z i / 2 ^ 62)) ∧
      r.toInt = ((p : Int) - 32) * 2 ^ 32 + ∑ i ∈ Finset.range 32, (bit i : Int) * 2 ^ (31 - i))

/-- LOG2 of a power of two is exact, and every LOG2 lies in the cell of its highest bit, so in
`[-32, 31)` (R163, I16). -/
def Obligations.LogTwoIsExactOnPowersOfTwo : Prop :=
  ∀ (a b : Word) (p : Nat) (s : State), 0 < a.toInt → 2 ^ p ≤ a.toInt → a.toInt < 2 ^ (p + 1) →
    ∃ r : Word, exec (.log2 a b) s = .next { s with phase := .done, err_q := 0, res_q := r } ∧
      ((p : Int) - 32) * 2 ^ 32 ≤ r.toInt ∧ r.toInt < ((p : Int) - 31) * 2 ^ 32 ∧
      (a.toInt = 2 ^ p → r.toInt = ((p : Int) - 32) * 2 ^ 32)

/-- LN (R165): DOMAIN unless the operand is positive; else the MUL of the LOG2 by the constant LN2, the word
`0x00000000B17217F7`. -/
def Obligations.LnIsLogTwoTimesLnTwo : Prop :=
  ∀ (a b : Word) (s : State),
    (a.toInt ≤ 0 → exec (.ln a b) s = .next { s with phase := .done, err_q := 2, res_q := 0 }) ∧
    (0 < a.toInt → ∃ l r : Word,
      exec (.log2 a b) s = .next { s with phase := .done, err_q := 0, res_q := l } ∧
      exec (.mul l 0x00000000B17217F7) s = .next { s with phase := .done, err_q := 0, res_q := r } ∧
      exec (.ln a b) s = .next { s with phase := .done, err_q := 0, res_q := r })

/-- POW2 (R167): with `n` the floor and `f` the fraction field of the exponent, MaxValue from 31 up, zero
from -33 down, and between them the truncated exponential series of `f * ln 2` in 24 terms, shifted by
`30 - n`. -/
def Obligations.PowTwoSumsTheExponentialSeries : Prop :=
  ∀ (a b : Word) (s : State),
    let n := a.toInt / 2 ^ 32
    let t := (a.extractLsb' 0 32).toNat * 0xB17217F7D1CF79AB / 2 ^ 34
    (31 ≤ n →
      exec (.pow2 a b) s = .next { s with phase := .done, err_q := 0, res_q := 0x7FFFFFFFFFFFFFFF }) ∧
    (n ≤ -33 → exec (.pow2 a b) s = .next { s with phase := .done, err_q := 0, res_q := 0 }) ∧
    (-32 ≤ n → n ≤ 30 → ∃ (r : Word) (term : Nat → Nat),
      exec (.pow2 a b) s = .next { s with phase := .done, err_q := 0, res_q := r } ∧
      term 0 = 2 ^ 62 ∧ (∀ k < 24, term (k + 1) = term k * t / 2 ^ 62 / (k + 1)) ∧
      r.toNat = (∑ k ∈ Finset.range 25, term k) / 2 ^ (30 - n).toNat)

/-- POW2 of an integer exponent is the exact power of two (R167, I16). -/
def Obligations.PowTwoIsExactOnIntegers : Prop :=
  ∀ (n : Int) (b : Word) (s : State), -32 ≤ n → n ≤ 30 →
    exec (.pow2 (BitVec.ofInt 64 (n * 2 ^ 32)) b) s =
      .next { s with phase := .done, err_q := 0, res_q := BitVec.ofNat 64 (2 ^ (n + 32).toNat) }

/-- POW (R170): one clause for each outcome of its tests, the last one through the unit's own LOG2, MUL and
POW2. -/
def Obligations.PowTakesTheRowOfItsTable : Prop :=
  ∀ (a b : Word) (s : State),
    (b = 0 →
      exec (.pow a b) s = .next { s with phase := .done, err_q := 0, res_q := 0x100000000 }) ∧
    (a = 0 → b.toInt < 0 →
      exec (.pow a b) s = .next { s with phase := .done, err_q := 1, res_q := 0 }) ∧
    (a = 0 → 0 < b.toInt →
      exec (.pow a b) s = .next { s with phase := .done, err_q := 0, res_q := 0 }) ∧
    (a.toInt < 0 → b ≠ 0 →
      exec (.pow a b) s = .next { s with phase := .done, err_q := 2, res_q := 0 }) ∧
    (0 < a.toInt → b ≠ 0 → ∃ l x r : Word,
      exec (.log2 a 0) s = .next { s with phase := .done, err_q := 0, res_q := l } ∧
      exec (.mul b l) s = .next { s with phase := .done, err_q := 0, res_q := x } ∧
      exec (.pow2 x 0) s = .next { s with phase := .done, err_q := 0, res_q := r } ∧
      exec (.pow a b) s = .next { s with phase := .done, err_q := 0, res_q := r })

/-! ### Trigonometry -/

/-- The ROM's listed entries: every sample of the sine table that R191 lists, and all 40 entries of the
arctangent table in the order of R202. -/
def Obligations.RomHoldsTheListedEntries : Prop :=
  ([0, 1, 2, 3, 8, 16, 4096, 8192, 16384, 32768, 43691, 65536, 87381, 98304, 114688, 131064, 131070,
      131071, 131072].map romSin =
    [0x000000000, 0x00000C910, 0x000019220, 0x000025B30, 0x00006487F, 0x0000C90FE, 0x00C8FB2F9,
      0x01917A6BC, 0x031F17079, 0x061F78A9B, 0x080003A0B, 0x0B504F334, 0x0DDB3B5C0, 0x0EC835E7A,
      0x0FB14BE80, 0x0FFFFFFEC, 0x0FFFFFFFF, 0x100000000, 0x100000000]) ∧
  ((List.range 40).map romAtan =
    [0x1921FB54442D1847, 0x0ED63382B0DDA7B4, 0x07D6DD7E4B203759, 0x03FAB7535585EDB9,
      0x01FF55BB72CFDE9C, 0x00FFEAADDD4BB125, 0x007FFD556EEDCA6B, 0x003FFFAAAB77752E,
      0x001FFFF5555BBBB7, 0x000FFFFEAAAADDDE, 0x0007FFFFD55556EF, 0x0003FFFFFAAAAAB7,
      0x0001FFFFFF555556, 0x0000FFFFFFEAAAAB, 0x00007FFFFFFD5555, 0x00003FFFFFFFAAAB,
      0x00001FFFFFFFF555, 0x00000FFFFFFFFEAB, 0x000007FFFFFFFFD5, 0x000003FFFFFFFFFB,
      0x000001FFFFFFFFFF, 0x0000010000000000, 0x0000008000000000, 0x0000004000000000,
      0x0000002000000000, 0x0000001000000000, 0x0000000800000000, 0x0000000400000000,
      0x0000000200000000, 0x0000000100000000, 0x0000000080000000, 0x0000000040000000,
      0x0000000020000000, 0x0000000010000000, 0x0000000008000000, 0x0000000004000000,
      0x0000000002000000, 0x0000000001000000, 0x0000000000800000, 0x0000000000400000])

/-- The sine table holds the rounded sine: every entry is within half a unit of `2^32 * sin(i * pi / 2^18)`,
but for the error of R192's generator, which is below `2^-64`. A table that truncates has entries outside this
bound. R191 says nearest, which is the half alone. -/
def Obligations.SineTableHoldsTheSine : Prop :=
  ∀ i : Nat, i ≤ 131072 →
    |(romSin i : ℝ) - 2 ^ 32 * Real.sin (i * Real.pi / 2 ^ 18)| < 1 / 2 + 1 / 2 ^ 64

/-- The angle reducer answers the sign and the table angle of its rule, and the table angle lies in the
quarter period (R194). -/
def Obligations.AngleReductionIsByQuadrants : Prop :=
  ∀ Y : Int, QuadrantReduction Y (reduceAngle Y).1 (reduceAngle Y).2

/-- SIN and COS (R197, R198, with R194 to R196): the reduced and interpolated sine of the angle at 96 fraction
bits, half of pi added at that width for COS. -/
def Obligations.SinCosReduceAndInterpolate : Prop :=
  ∀ (a b : Word) (s : State), ∃ x y : Word,
    exec (.sin a b) s = .next { s with phase := .done, err_q := 0, res_q := x } ∧
    exec (.cos a b) s = .next { s with phase := .done, err_q := 0, res_q := y } ∧
    SineBy InterpolatedEntry (a.toInt * 2 ^ 64) x.toInt ∧
    SineBy InterpolatedEntry (a.toInt * 2 ^ 64 + 0x1921FB54442D18469898CC517) y.toInt

/-- FASTSIN and FASTCOS (R200, R201, with R199): the same reduction and the nearest entry of the coarse
table. -/
def Obligations.FastSinCosTakeTheCoarseEntry : Prop :=
  ∀ (a b : Word) (s : State), ∃ x y : Word,
    exec (.fastsin a b) s = .next { s with phase := .done, err_q := 0, res_q := x } ∧
    exec (.fastcos a b) s = .next { s with phase := .done, err_q := 0, res_q := y } ∧
    SineBy CoarseEntry (a.toInt * 2 ^ 64) x.toInt ∧
    SineBy CoarseEntry (a.toInt * 2 ^ 64 + 0x1921FB54442D18469898CC517) y.toInt

/-- No sine or cosine leaves `[-ONE, ONE]` (R195, which the spec marks as its own inference; I19). -/
def Obligations.SinesLieBetweenMinusOneAndOne : Prop :=
  ∀ (a b : Word) (s t : State) (i : Instr),
    i ∈ [Instr.sin a b, .cos a b, .fastsin a b, .fastcos a b] → exec i s = .next t →
    -2 ^ 32 ≤ t.res_q.toInt ∧ t.res_q.toInt ≤ 2 ^ 32

/-- SIN and FASTSIN are odd, COS and FASTCOS are even, on every operand but the smallest, whose negation is not
representable (corner cases of R197 and R198; I19). -/
def Obligations.SineIsOddAndCosineIsEven : Prop :=
  ∀ (a b : Word) (s : State), a ≠ 0x8000000000000000 → ∃ x x' : Word,
    exec (.sin a b) s = .next { s with phase := .done, err_q := 0, res_q := x } ∧
    exec (.sin (-a) b) s = .next { s with phase := .done, err_q := 0, res_q := -x } ∧
    exec (.fastsin a b) s = .next { s with phase := .done, err_q := 0, res_q := x' } ∧
    exec (.fastsin (-a) b) s = .next { s with phase := .done, err_q := 0, res_q := -x' } ∧
    exec (.cos (-a) b) s = exec (.cos a b) s ∧
    exec (.fastcos (-a) b) s = exec (.fastcos a b) s

/-- TAN (R206): the DIV of the SIN by the COS of the same angle; DIV_BY_ZERO exactly where that cosine is the
zero word. -/
def Obligations.TanDividesSinByCos : Prop :=
  ∀ (a b : Word) (s : State), ∃ x y : Word,
    exec (.sin a b) s = .next { s with phase := .done, err_q := 0, res_q := x } ∧
    exec (.cos a b) s = .next { s with phase := .done, err_q := 0, res_q := y } ∧
    (y = 0 → exec (.tan a b) s = .next { s with phase := .done, err_q := 1, res_q := 0 }) ∧
    (y ≠ 0 → ∃ r : Word,
      exec (.div x y) s = .next { s with phase := .done, err_q := 0, res_q := r } ∧
      exec (.tan a b) s = .next { s with phase := .done, err_q := 0, res_q := r })

/-- ATAN and ATAN2 (R207, R208, with R204): the vectoring angle of `(ONE, |a|)` with the sign restored, and of
`(|x|, |y|)` mirrored for a negative `x` and negated for a negative `y`. -/
def Obligations.AtanAndAtanTwoFoldToTheFirstQuadrant : Prop :=
  ∀ (a b : Word) (s : State), ∃ (r q : Word) (v w : Int),
    exec (.atan a b) s = .next { s with phase := .done, err_q := 0, res_q := r } ∧
    exec (.atan2 a b) s = .next { s with phase := .done, err_q := 0, res_q := q } ∧
    VectoringAngle (2 ^ 32) a.toInt.natAbs v ∧
    r.toInt = (if a.toInt < 0 then -v else v) ∧
    VectoringAngle b.toInt.natAbs a.toInt.natAbs w ∧
    q.toInt = (if a.toInt < 0 then -1 else 1) * (if b.toInt < 0 then 0x3243F6A88 - w else w)

/-- ACOS (R209): DOMAIN outside `[-ONE, ONE]`, else the vectoring angle of `(|a|, r)` with `r` the integer
root of `2^64 - a^2`, taken from PI for a negative operand. -/
def Obligations.AcosIsTheAngleOfItsPoint : Prop :=
  ∀ (a b : Word) (s : State),
    (a.toInt < -2 ^ 32 ∨ 2 ^ 32 < a.toInt →
      exec (.acos a b) s = .next { s with phase := .done, err_q := 2, res_q := 0 }) ∧
    (-2 ^ 32 ≤ a.toInt → a.toInt ≤ 2 ^ 32 → ∃ (r : Word) (q : Nat) (v : Int),
      exec (.acos a b) s = .next { s with phase := .done, err_q := 0, res_q := r } ∧
      (q : Int) * q ≤ 2 ^ 64 - a.toInt * a.toInt ∧ 2 ^ 64 - a.toInt * a.toInt < ((q : Int) + 1) * (q + 1) ∧
      VectoringAngle a.toInt.natAbs q v ∧
      r.toInt = if a.toInt < 0 then 0x3243F6A88 - v else v)

/-- The ranges and the symmetries of the arctangents (R207 to R209, I19, I20): ATAN2 with ONE is ATAN, ATAN lies
within `PI_OVER_2` and is odd, ATAN2 lies within `PI`, ACOS in `0 .. PI`. -/
def Obligations.ArctangentsKeepTheirRanges : Prop :=
  ∀ (a b : Word) (s : State), ∃ r q : Word,
    exec (.atan a b) s = .next { s with phase := .done, err_q := 0, res_q := r } ∧
    exec (.atan2 a 0x100000000) s = .next { s with phase := .done, err_q := 0, res_q := r } ∧
    |r.toInt| ≤ 0x1921FB544 ∧
    (a ≠ 0x8000000000000000 →
      exec (.atan (-a) b) s = .next { s with phase := .done, err_q := 0, res_q := -r }) ∧
    exec (.atan2 a b) s = .next { s with phase := .done, err_q := 0, res_q := q } ∧
    |q.toInt| ≤ 0x3243F6A88 ∧
    (∀ t, exec (.acos a b) s = .next t → 0 ≤ t.res_q.toInt ∧ t.res_q.toInt ≤ 0x3243F6A88)

/-- The exact identities that the source demands bit for bit, as R210 lists them (the spec marks
that they hold as its own inference), with PI and PI_OVER_2 the raw
constants. -/
def Obligations.ExactTrigonometricIdentities : Prop :=
  ∀ (x y b : Word) (s : State),
    let ok := fun r : Word => Host.Outcome.next (φ := Fault) (ρ := Refusal)
      { s with phase := .done, err_q := 0, res_q := r }
    let divByZero := Host.Outcome.next (φ := Fault) (ρ := Refusal)
      { s with phase := .done, err_q := 1, res_q := 0 }
    let one : Word := 0x100000000
    let pi : Word := 0x3243F6A88
    let pi2 : Word := 0x1921FB544
    (exec (.sin 0 b) s = ok 0 ∧ exec (.sin pi2 b) s = ok one ∧ exec (.sin pi b) s = ok 0 ∧
      exec (.sin (pi + pi2) b) s = ok (-one)) ∧
    (exec (.cos 0 b) s = ok one ∧ exec (.cos pi2 b) s = ok 0 ∧ exec (.cos pi b) s = ok (-one) ∧
      exec (.cos (pi + pi2) b) s = ok 0) ∧
    (exec (.fastsin 0 b) s = ok 0 ∧ exec (.fastsin pi2 b) s = ok one ∧ exec (.fastsin pi b) s = ok 0 ∧
      exec (.fastsin (pi + pi2) b) s = ok (-one)) ∧
    (exec (.fastcos 0 b) s = ok one ∧ exec (.fastcos pi2 b) s = ok 0 ∧ exec (.fastcos pi b) s = ok (-one) ∧
      exec (.fastcos (pi + pi2) b) s = ok 0) ∧
    exec (.atan 0 b) s = ok 0 ∧
    (x.toInt < 0 → exec (.atan2 0 x) s = ok pi) ∧ (0 ≤ x.toInt → exec (.atan2 0 x) s = ok 0) ∧
    (0 < y.toInt → exec (.atan2 y 0) s = ok pi2) ∧ (y.toInt < 0 → exec (.atan2 y 0) s = ok (-pi2)) ∧
    (exec (.acos one b) s = ok 0 ∧ exec (.acos 0 b) s = ok pi2 ∧ exec (.acos (-one) b) s = ok pi) ∧
    (exec (.tan pi2 b) s = divByZero ∧ exec (.tan (-pi2) b) s = divByZero ∧
      exec (.tan (pi + pi2) b) s = divByZero)
end

