-- ==== Sys2Proof/Laws/Arith.lean ====
section
/-! SUPPORT. One lemma per helper function of 00_scope.md section 5 that says what it computes, in the
library's own terms. -/

namespace Sys2Proof.Machine

open Sys2Proof.Config

theorem s64_lower (w : Word) : -2 ^ 63 ≤ s64 w := by
  have := BitVec.le_toInt w
  unfold s64
  simpa using this

theorem s64_upper (w : Word) : s64 w ≤ 2 ^ 63 - 1 := by
  have := BitVec.toInt_lt (x := w)
  unfold s64
  omega

/-- A word is determined by its signed value. -/
@[simp] theorem u64_s64 (w : Word) : u64 (s64 w) = w := by
  simp [u64, s64]

/-- The signed value of the word of an integer in range is the integer. -/
theorem toInt_u64 (v : Int) (hl : -2 ^ 63 ≤ v) (hu : v ≤ 2 ^ 63 - 1) : (u64 v).toInt = v := by
  unfold u64
  rw [BitVec.toInt_ofInt]
  exact Int.bmod_eq_of_le (by omega) (by omega)

/-- The word of a natural number below `2^64` has it as its unsigned value. -/
theorem toNat_u64 (n : Nat) (h : n < 2 ^ 64) : (u64 (n : Int)).toNat = n := by
  unfold u64
  rw [BitVec.toNat_ofInt]
  omega

theorem asr_eq_ediv (v : Int) (k : Nat) : asr v k = v / 2 ^ k := by
  simp [asr, Int.shiftRight_eq_div_pow]

theorem shl_eq_mul (v : Int) (k : Nat) : shl v k = v * 2 ^ k := rfl

/-- Saturation is clamping to the raw range. -/
theorem sat_eq_clamp (v : Int) : sat v = max (-2 ^ 63) (min (2 ^ 63 - 1) v) := by
  unfold sat MAXV MINV
  split
  · omega
  · split <;> omega

theorem sat_lower (v : Int) : -2 ^ 63 ≤ sat v := by rw [sat_eq_clamp]; omega

theorem sat_upper (v : Int) : sat v ≤ 2 ^ 63 - 1 := by rw [sat_eq_clamp]; omega

/-- A saturated value survives its word. -/
@[simp] theorem toInt_u64_sat (v : Int) : (u64 (sat v)).toInt = sat v :=
  toInt_u64 _ (sat_lower v) (sat_upper v)

/-- `rne` lies within half a step of its operand, and is even when it lies exactly half a step away. -/
theorem rne_nearest (v : Int) (k : Nat) (hk : 1 ≤ k) :
    2 * |rne v k * 2 ^ k - v| ≤ 2 ^ k ∧ (2 * |rne v k * 2 ^ k - v| = 2 ^ k → rne v k % 2 = 0) := by
  obtain ⟨j, rfl⟩ : ∃ j, k = j + 1 := ⟨k - 1, by omega⟩
  have hp : (0 : Int) < 2 ^ j := by positivity
  have hq : v / 2 ^ (j + 1) * 2 ^ (j + 1) + v % 2 ^ (j + 1) = v := by
    rw [mul_comm]; exact Int.mul_ediv_add_emod v _
  have h0 : 0 ≤ v % 2 ^ (j + 1) := Int.emod_nonneg _ (by positivity)
  have h1 : v % 2 ^ (j + 1) < 2 ^ (j + 1) := Int.emod_lt_of_pos _ (by positivity)
  have hs : (2 : Int) ^ (j + 1) = 2 * 2 ^ j := by ring
  simp only [rne, asr_eq_ediv, Nat.add_sub_cancel]
  generalize hQ : v / 2 ^ (j + 1) = q at *
  generalize hR : v % 2 ^ (j + 1) = m at *
  have hv : v - q * 2 ^ (j + 1) = m := by linarith
  rw [hv]
  split
  · have e : (q + 1) * 2 ^ (j + 1) - v = 2 ^ (j + 1) - m := by linarith
    rw [e, abs_of_nonneg (by linarith)]
    omega
  · have e : q * 2 ^ (j + 1) - v = -m := by linarith
    rw [e, abs_neg, abs_of_nonneg h0]
    omega

/-- `tdiv` is the library's truncating division. -/
theorem tdiv_eq (n d : Int) : tdiv n d = n.tdiv d := by
  obtain ⟨m, rfl | rfl⟩ := Int.eq_nat_or_neg n <;> obtain ⟨k, rfl | rfl⟩ := Int.eq_nat_or_neg d <;>
    rcases Nat.eq_zero_or_pos m with rfl | hm <;> rcases Nat.eq_zero_or_pos k with rfl | hk <;>
    simp [tdiv, Int.sign_natCast_of_ne_zero, Nat.ne_of_gt, *]

/-- `trem` is the library's truncating remainder. -/
theorem trem_eq (n d : Int) : trem n d = n.tmod d := by
  rw [trem, tdiv_eq, Int.tmod_def, mul_comm d]

/-- One digit of the square root keeps the invariant of R161: root and remainder account for the bits
brought down, and the remainder stays below the next trial. -/
theorem sqrtStep_invariant (r i : Nat) (st : Nat × Nat)
    (h : st.1 * st.1 + st.2 = r / 2 ^ (2 * (i + 1))) (hr : st.2 ≤ 2 * st.1) :
    (sqrtStep r i st).1 * (sqrtStep r i st).1 + (sqrtStep r i st).2 = r / 2 ^ (2 * i) ∧
      (sqrtStep r i st).2 ≤ 2 * (sqrtStep r i st).1 := by
  have hd : r / 2 ^ (2 * i) = r / 2 ^ (2 * (i + 1)) * 4 + r / 2 ^ (2 * i) % 4 := by
    have : r / 2 ^ (2 * (i + 1)) = r / 2 ^ (2 * i) / 4 := by
      rw [Nat.div_div_eq_div_mul]; congr 1; ring
    omega
  rw [← h] at hd
  have hm : r / 2 ^ (2 * i) % 4 < 4 := Nat.mod_lt _ (by omega)
  simp only [sqrtStep]
  generalize r / 2 ^ (2 * i) % 4 = m at *
  obtain ⟨q, e⟩ := st
  dsimp only at *
  split
  · have : (q * 2 + 1) * (q * 2 + 1) = q * q * 4 + (q * 4 + 1) := by ring
    dsimp only
    omega
  · have : (q * 2) * (q * 2) = q * q * 4 := by ring
    dsimp only
    omega

end Sys2Proof.Machine
end

