-- ==== Sys2Proof/Laws/Encoding.lean ====
section
/-! SUPPORT. The fields of a command word: putting three fields together and taking them apart are inverse
(30_encoding.md R50). -/

namespace Sys2Proof

@[simp] theorem op_commandWord (op : OpCode) (a b : Word) :
    CommandWord.op (commandWord op a b) = op := by
  apply BitVec.eq_of_getElem_eq
  intro i hi
  simp [CommandWord.op, commandWord]
  grind

@[simp] theorem a_commandWord (op : OpCode) (a b : Word) :
    CommandWord.a (commandWord op a b) = a := by
  apply BitVec.eq_of_getElem_eq
  intro i hi
  simp [CommandWord.a, commandWord]
  grind

@[simp] theorem b_commandWord (op : OpCode) (a b : Word) :
    CommandWord.b (commandWord op a b) = b := by
  apply BitVec.eq_of_getElem_eq
  intro i hi
  simp [CommandWord.b, commandWord]
  grind

@[simp] theorem commandWord_fields (cw : CommandWord) :
    commandWord (CommandWord.op cw) (CommandWord.a cw) (CommandWord.b cw) = cw := by
  apply BitVec.eq_of_getElem_eq
  intro i hi
  rw [commandWord, BitVec.getElem_append]
  split
  · simp [CommandWord.b, BitVec.getLsbD_eq_getElem hi]
  · rw [BitVec.getElem_append]
    split
    · rw [CommandWord.a, BitVec.getElem_extractLsb', ← BitVec.getLsbD_eq_getElem hi,
        show 64 + (i - 64) = i by omega]
    · rw [CommandWord.op, BitVec.getElem_extractLsb', ← BitVec.getLsbD_eq_getElem hi,
        show 128 + (i - 64 - 64) = i by omega]

/-- The decoder on a word given by its fields is the opcode map. -/
@[simp] theorem decode_commandWord (op : OpCode) (a b : Word) :
    decode (commandWord op a b) = decodeFields op a b := by
  simp [decode]

/-- The word of a 136-bit number is that number. -/
theorem wordOfBits_toNat (cw : CommandWord) : wordOfBits 136 cw.toNat = cw := by
  unfold wordOfBits
  rw [Nat.mod_eq_of_lt cw.isLt, BitVec.ofNat_toNat, BitVec.setWidth_eq]

end Sys2Proof
end

