-- ==== Sys2Proof/Laws/State.lean ====
section
/-! SUPPORT. One lemma per field per update of the state, all true by `rfl`: no later proof unfolds a record
update. -/

namespace Sys2Proof.Machine

/-! `State.answer` -/

@[simp] theorem State.answer_phase (s : State) (err : ErrCode) (res : Word) : (s.answer err res).phase = .done := rfl

@[simp] theorem State.answer_op_q (s : State) (err : ErrCode) (res : Word) : (s.answer err res).op_q = s.op_q := rfl

@[simp] theorem State.answer_a_q (s : State) (err : ErrCode) (res : Word) : (s.answer err res).a_q = s.a_q := rfl

@[simp] theorem State.answer_b_q (s : State) (err : ErrCode) (res : Word) : (s.answer err res).b_q = s.b_q := rfl

@[simp] theorem State.answer_err_q (s : State) (err : ErrCode) (res : Word) : (s.answer err res).err_q = err := rfl

@[simp] theorem State.answer_res_q (s : State) (err : ErrCode) (res : Word) : (s.answer err res).res_q = res := rfl

@[simp] theorem State.answer_pins (s : State) (err : ErrCode) (res : Word) : (s.answer err res).pins = s.pins := rfl

@[simp] theorem State.answer_plan (s : State) (err : ErrCode) (res : Word) : (s.answer err res).plan = s.plan := rfl

@[simp] theorem State.answer_latency (s : State) (err : ErrCode) (res : Word) : (s.answer err res).latency = s.latency := rfl

@[simp] theorem State.answer_wait (s : State) (err : ErrCode) (res : Word) : (s.answer err res).wait = s.wait := rfl

/-! `State.acceptCommand` -/

@[simp] theorem State.acceptCommand_phase (s : State) (op : OpCode) (a b : Word) : (s.acceptCommand op a b).phase = .busy := rfl

@[simp] theorem State.acceptCommand_op_q (s : State) (op : OpCode) (a b : Word) : (s.acceptCommand op a b).op_q = op := rfl

@[simp] theorem State.acceptCommand_a_q (s : State) (op : OpCode) (a b : Word) : (s.acceptCommand op a b).a_q = a := rfl

@[simp] theorem State.acceptCommand_b_q (s : State) (op : OpCode) (a b : Word) : (s.acceptCommand op a b).b_q = b := rfl

@[simp] theorem State.acceptCommand_err_q (s : State) (op : OpCode) (a b : Word) : (s.acceptCommand op a b).err_q = s.err_q := rfl

@[simp] theorem State.acceptCommand_res_q (s : State) (op : OpCode) (a b : Word) : (s.acceptCommand op a b).res_q = s.res_q := rfl

@[simp] theorem State.acceptCommand_pins (s : State) (op : OpCode) (a b : Word) : (s.acceptCommand op a b).pins = s.pins := rfl

@[simp] theorem State.acceptCommand_plan (s : State) (op : OpCode) (a b : Word) : (s.acceptCommand op a b).plan = s.plan := rfl

@[simp] theorem State.acceptCommand_latency (s : State) (op : OpCode) (a b : Word) : (s.acceptCommand op a b).latency = s.latency := rfl

@[simp] theorem State.acceptCommand_wait (s : State) (op : OpCode) (a b : Word) : (s.acceptCommand op a b).wait = s.extraEdges op a b := rfl

/-! `State.tick` -/

@[simp] theorem State.tick_phase (s : State) : (s.tick).phase = s.phase := rfl

@[simp] theorem State.tick_op_q (s : State) : (s.tick).op_q = s.op_q := rfl

@[simp] theorem State.tick_a_q (s : State) : (s.tick).a_q = s.a_q := rfl

@[simp] theorem State.tick_b_q (s : State) : (s.tick).b_q = s.b_q := rfl

@[simp] theorem State.tick_err_q (s : State) : (s.tick).err_q = s.err_q := rfl

@[simp] theorem State.tick_res_q (s : State) : (s.tick).res_q = s.res_q := rfl

@[simp] theorem State.tick_pins (s : State) : (s.tick).pins = s.pins := rfl

@[simp] theorem State.tick_plan (s : State) : (s.tick).plan = s.plan := rfl

@[simp] theorem State.tick_latency (s : State) : (s.tick).latency = s.latency := rfl

@[simp] theorem State.tick_wait (s : State) : (s.tick).wait = s.wait - 1 := rfl

/-! `State.deliver` -/

@[simp] theorem State.deliver_phase (s : State) : (s.deliver).phase = .idle := rfl

@[simp] theorem State.deliver_op_q (s : State) : (s.deliver).op_q = s.op_q := rfl

@[simp] theorem State.deliver_a_q (s : State) : (s.deliver).a_q = s.a_q := rfl

@[simp] theorem State.deliver_b_q (s : State) : (s.deliver).b_q = s.b_q := rfl

@[simp] theorem State.deliver_err_q (s : State) : (s.deliver).err_q = s.err_q := rfl

@[simp] theorem State.deliver_res_q (s : State) : (s.deliver).res_q = s.res_q := rfl

@[simp] theorem State.deliver_pins (s : State) : (s.deliver).pins = s.pins := rfl

@[simp] theorem State.deliver_plan (s : State) : (s.deliver).plan = s.plan := rfl

@[simp] theorem State.deliver_latency (s : State) : (s.deliver).latency = s.latency := rfl

@[simp] theorem State.deliver_wait (s : State) : (s.deliver).wait = s.wait := rfl

/-! `State.resetUnit` -/

@[simp] theorem State.resetUnit_phase (s : State) : (s.resetUnit).phase = .idle := rfl

@[simp] theorem State.resetUnit_op_q (s : State) : (s.resetUnit).op_q = 0 := rfl

@[simp] theorem State.resetUnit_a_q (s : State) : (s.resetUnit).a_q = 0 := rfl

@[simp] theorem State.resetUnit_b_q (s : State) : (s.resetUnit).b_q = 0 := rfl

@[simp] theorem State.resetUnit_err_q (s : State) : (s.resetUnit).err_q = 0 := rfl

@[simp] theorem State.resetUnit_res_q (s : State) : (s.resetUnit).res_q = 0 := rfl

@[simp] theorem State.resetUnit_pins (s : State) : (s.resetUnit).pins = s.pins := rfl

@[simp] theorem State.resetUnit_plan (s : State) : (s.resetUnit).plan = s.plan := rfl

@[simp] theorem State.resetUnit_latency (s : State) : (s.resetUnit).latency = s.latency := rfl

@[simp] theorem State.resetUnit_wait (s : State) : (s.resetUnit).wait = 0 := rfl

/-! `State.hostDrive` -/

@[simp] theorem State.hostDrive_phase (s : State) : (s.hostDrive).phase = s.phase := rfl

@[simp] theorem State.hostDrive_op_q (s : State) : (s.hostDrive).op_q = s.op_q := rfl

@[simp] theorem State.hostDrive_a_q (s : State) : (s.hostDrive).a_q = s.a_q := rfl

@[simp] theorem State.hostDrive_b_q (s : State) : (s.hostDrive).b_q = s.b_q := rfl

@[simp] theorem State.hostDrive_err_q (s : State) : (s.hostDrive).err_q = s.err_q := rfl

@[simp] theorem State.hostDrive_res_q (s : State) : (s.hostDrive).res_q = s.res_q := rfl

@[simp] theorem State.hostDrive_pins (s : State) : (s.hostDrive).pins = s.nextPins := rfl

@[simp] theorem State.hostDrive_plan (s : State) : (s.hostDrive).plan = s.plan.tail := rfl

@[simp] theorem State.hostDrive_latency (s : State) : (s.hostDrive).latency = s.latency := rfl

@[simp] theorem State.hostDrive_wait (s : State) : (s.hostDrive).wait = s.wait := rfl

/-! `State.holding` -/

@[simp] theorem State.holding_phase (s : State) (cw : CommandWord) : (s.holding cw).phase = .busy := rfl

@[simp] theorem State.holding_op_q (s : State) (cw : CommandWord) : (s.holding cw).op_q = CommandWord.op cw := rfl

@[simp] theorem State.holding_a_q (s : State) (cw : CommandWord) : (s.holding cw).a_q = CommandWord.a cw := rfl

@[simp] theorem State.holding_b_q (s : State) (cw : CommandWord) : (s.holding cw).b_q = CommandWord.b cw := rfl

@[simp] theorem State.holding_err_q (s : State) (cw : CommandWord) : (s.holding cw).err_q = s.err_q := rfl

@[simp] theorem State.holding_res_q (s : State) (cw : CommandWord) : (s.holding cw).res_q = s.res_q := rfl

@[simp] theorem State.holding_pins (s : State) (cw : CommandWord) :
    (s.holding cw).pins = { s.pins with reset := false, cmd_valid := false } := rfl

@[simp] theorem State.holding_plan (s : State) (cw : CommandWord) : (s.holding cw).plan = s.plan := rfl

@[simp] theorem State.holding_latency (s : State) (cw : CommandWord) : (s.holding cw).latency = s.latency := rfl

@[simp] theorem State.holding_wait (s : State) (cw : CommandWord) : (s.holding cw).wait = 0 := rfl

/-! Operations that read the state see through the updates of what they do not read. -/

@[simp] theorem State.extraEdges_answer (s : State) (err : ErrCode) (res : Word) (o : OpCode) (x y : Word) :
    (s.answer err res).extraEdges o x y = s.extraEdges o x y := rfl

@[simp] theorem State.extraEdges_acceptCommand (s : State) (op : OpCode) (a b : Word) (o : OpCode) (x y : Word) :
    (s.acceptCommand op a b).extraEdges o x y = s.extraEdges o x y := rfl

@[simp] theorem State.extraEdges_tick (s : State) (o : OpCode) (x y : Word) :
    (s.tick).extraEdges o x y = s.extraEdges o x y := rfl

@[simp] theorem State.extraEdges_deliver (s : State) (o : OpCode) (x y : Word) :
    (s.deliver).extraEdges o x y = s.extraEdges o x y := rfl

@[simp] theorem State.extraEdges_resetUnit (s : State) (o : OpCode) (x y : Word) :
    (s.resetUnit).extraEdges o x y = s.extraEdges o x y := rfl

@[simp] theorem State.extraEdges_hostDrive (s : State) (o : OpCode) (x y : Word) :
    (s.hostDrive).extraEdges o x y = s.extraEdges o x y := rfl

@[simp] theorem State.extraEdges_holding (s : State) (cw : CommandWord) (o : OpCode) (x y : Word) :
    (s.holding cw).extraEdges o x y = s.extraEdges o x y := rfl

@[simp] theorem State.nextPins_answer (s : State) (err : ErrCode) (res : Word) : (s.answer err res).nextPins = s.nextPins := rfl

@[simp] theorem State.nextPins_tick (s : State) : (s.tick).nextPins = s.nextPins := rfl

@[simp] theorem State.nextPins_acceptCommand (s : State) (op : OpCode) (a b : Word) : (s.acceptCommand op a b).nextPins = s.nextPins := rfl

@[simp] theorem State.nextPins_deliver (s : State) : (s.deliver).nextPins = s.nextPins := rfl

@[simp] theorem State.nextPins_resetUnit (s : State) : (s.resetUnit).nextPins = s.nextPins := rfl

/-- With an empty plan the host's levels stay as they are. -/
theorem State.hostDrive_of_plan_nil (s : State) (h : s.plan = []) : s.hostDrive = s := by
  cases s; simp_all [State.hostDrive, State.nextPins]

/-- With an empty plan the next levels are the present ones. -/
theorem State.nextPins_of_plan_nil (s : State) (h : s.plan = []) : s.nextPins = s.pins := by
  simp [State.nextPins, h]

end Sys2Proof.Machine
end

