-- ==== Sys2Proof/Laws/Ops.lean ====
section
/-! SUPPORT. What the shared operations can do, once each. -/

namespace Sys2Proof.Machine

/-- Ending a command always answers a next state: the response is latched, the phase is DONE. -/
@[simp] theorem finish_eq (r : Result) (s : State) :
    finish r s = .next { s with phase := .done, err_q := r.err, res_q := r.res } := rfl

@[simp] theorem err_word (w : Word) : (Result.word w).err = 0 := rfl
@[simp] theorem res_word (w : Word) : (Result.word w).res = w := rfl
@[simp] theorem err_value (v : Int) : (Result.value v).err = 0 := rfl
@[simp] theorem res_value (v : Int) : (Result.value v).res = u64 v := rfl
@[simp] theorem res_raise (e : ErrorKind) : (Result.raise e).res = 0 := rfl
@[simp] theorem err_divByZero : (Result.raise .divByZero).err = 1 := rfl
@[simp] theorem err_domain : (Result.raise .domain).err = 2 := rfl
@[simp] theorem err_illegalCommand : (Result.raise .illegalCommand).err = 3 := rfl

/-- A command's rule never answers a value with an error code: an error has the zero word (R243). -/
theorem Result.res_of_err_ne_zero (r : Result) (h : r.err ≠ 0) : r.res = 0 := by
  cases r with
  | word w => exact absurd rfl h
  | raise e => rfl

/-- The multiplier answers the clamped integer nearest to the product over `2^32`. -/
theorem mulRaw_eq (a b : Int) : ∃ q, 2 * |q * 2 ^ 32 - a * b| ≤ 2 ^ 32 ∧
    (2 * |q * 2 ^ 32 - a * b| = 2 ^ 32 → q % 2 = 0) ∧
    mulRaw a b = max (-2 ^ 63) (min (2 ^ 63 - 1) q) :=
  ⟨rne (a * b) 32, (rne_nearest _ 32 (by omega)).1, (rne_nearest _ 32 (by omega)).2,
    sat_eq_clamp _⟩

/-- The divider raises on a zero divisor and answers the clamped truncated quotient otherwise. -/
theorem divRaw_cases (a b : Int) :
    (b = 0 ∧ divRaw a b = .raise .divByZero) ∨
    (b ≠ 0 ∧ divRaw a b = .value (sat ((a * 2 ^ 32).tdiv b))) := by
  unfold divRaw
  split
  · exact .inl ⟨‹_›, rfl⟩
  · exact .inr ⟨‹_›, by rw [tdiv_eq, shl_eq_mul]⟩

end Sys2Proof.Machine
end

