-- ==== Sys2Proof/Laws/PerInstr.lean ====
section
/-! SUPPORT. The per-instruction family `EncodedFields`: the three fields of a command's word are its operation
code and its operands, and the operation code is a defined one (30_encoding.md R50, R55). -/

namespace Sys2Proof.Laws

/-- The command word of `i` holds the code and the operands of `i`, and the code is one of the 40. -/
def EncodedFields.Statement (i : Instr) : Prop :=
  CommandWord.op (encode i) = i.opcode ∧ CommandWord.a (encode i) = i.opA ∧
    CommandWord.b (encode i) = i.opB ∧ i.wellFormed = true

theorem EncodedFields.fromraw (a b : Word) : EncodedFields.Statement (.fromraw a b) :=
  ⟨op_commandWord _ _ _, a_commandWord _ _ _, b_commandWord _ _ _, rfl⟩

theorem EncodedFields.fromint (a b : Word) : EncodedFields.Statement (.fromint a b) :=
  ⟨op_commandWord _ _ _, a_commandWord _ _ _, b_commandWord _ _ _, rfl⟩

theorem EncodedFields.toint (a b : Word) : EncodedFields.Statement (.toint a b) :=
  ⟨op_commandWord _ _ _, a_commandWord _ _ _, b_commandWord _ _ _, rfl⟩

theorem EncodedFields.fromf64 (a b : Word) : EncodedFields.Statement (.fromf64 a b) :=
  ⟨op_commandWord _ _ _, a_commandWord _ _ _, b_commandWord _ _ _, rfl⟩

theorem EncodedFields.tof64 (a b : Word) : EncodedFields.Statement (.tof64 a b) :=
  ⟨op_commandWord _ _ _, a_commandWord _ _ _, b_commandWord _ _ _, rfl⟩

theorem EncodedFields.czero (a b : Word) : EncodedFields.Statement (.czero a b) :=
  ⟨op_commandWord _ _ _, a_commandWord _ _ _, b_commandWord _ _ _, rfl⟩

theorem EncodedFields.cone (a b : Word) : EncodedFields.Statement (.cone a b) :=
  ⟨op_commandWord _ _ _, a_commandWord _ _ _, b_commandWord _ _ _, rfl⟩

theorem EncodedFields.cmin (a b : Word) : EncodedFields.Statement (.cmin a b) :=
  ⟨op_commandWord _ _ _, a_commandWord _ _ _, b_commandWord _ _ _, rfl⟩

theorem EncodedFields.cmax (a b : Word) : EncodedFields.Statement (.cmax a b) :=
  ⟨op_commandWord _ _ _, a_commandWord _ _ _, b_commandWord _ _ _, rfl⟩

theorem EncodedFields.cpi (a b : Word) : EncodedFields.Statement (.cpi a b) :=
  ⟨op_commandWord _ _ _, a_commandWord _ _ _, b_commandWord _ _ _, rfl⟩

theorem EncodedFields.cpio2 (a b : Word) : EncodedFields.Statement (.cpio2 a b) :=
  ⟨op_commandWord _ _ _, a_commandWord _ _ _, b_commandWord _ _ _, rfl⟩

theorem EncodedFields.cpi2 (a b : Word) : EncodedFields.Statement (.cpi2 a b) :=
  ⟨op_commandWord _ _ _, a_commandWord _ _ _, b_commandWord _ _ _, rfl⟩

theorem EncodedFields.cprec (a b : Word) : EncodedFields.Statement (.cprec a b) :=
  ⟨op_commandWord _ _ _, a_commandWord _ _ _, b_commandWord _ _ _, rfl⟩

theorem EncodedFields.add (a b : Word) : EncodedFields.Statement (.add a b) :=
  ⟨op_commandWord _ _ _, a_commandWord _ _ _, b_commandWord _ _ _, rfl⟩

theorem EncodedFields.sub (a b : Word) : EncodedFields.Statement (.sub a b) :=
  ⟨op_commandWord _ _ _, a_commandWord _ _ _, b_commandWord _ _ _, rfl⟩

theorem EncodedFields.mul (a b : Word) : EncodedFields.Statement (.mul a b) :=
  ⟨op_commandWord _ _ _, a_commandWord _ _ _, b_commandWord _ _ _, rfl⟩

theorem EncodedFields.div (a b : Word) : EncodedFields.Statement (.div a b) :=
  ⟨op_commandWord _ _ _, a_commandWord _ _ _, b_commandWord _ _ _, rfl⟩

theorem EncodedFields.mod (a b : Word) : EncodedFields.Statement (.mod a b) :=
  ⟨op_commandWord _ _ _, a_commandWord _ _ _, b_commandWord _ _ _, rfl⟩

theorem EncodedFields.neg (a b : Word) : EncodedFields.Statement (.neg a b) :=
  ⟨op_commandWord _ _ _, a_commandWord _ _ _, b_commandWord _ _ _, rfl⟩

theorem EncodedFields.cmp (a b : Word) : EncodedFields.Statement (.cmp a b) :=
  ⟨op_commandWord _ _ _, a_commandWord _ _ _, b_commandWord _ _ _, rfl⟩

theorem EncodedFields.eq (a b : Word) : EncodedFields.Statement (.eq a b) :=
  ⟨op_commandWord _ _ _, a_commandWord _ _ _, b_commandWord _ _ _, rfl⟩

theorem EncodedFields.sign (a b : Word) : EncodedFields.Statement (.sign a b) :=
  ⟨op_commandWord _ _ _, a_commandWord _ _ _, b_commandWord _ _ _, rfl⟩

theorem EncodedFields.abs (a b : Word) : EncodedFields.Statement (.abs a b) :=
  ⟨op_commandWord _ _ _, a_commandWord _ _ _, b_commandWord _ _ _, rfl⟩

theorem EncodedFields.fastabs (a b : Word) : EncodedFields.Statement (.fastabs a b) :=
  ⟨op_commandWord _ _ _, a_commandWord _ _ _, b_commandWord _ _ _, rfl⟩

theorem EncodedFields.floor (a b : Word) : EncodedFields.Statement (.floor a b) :=
  ⟨op_commandWord _ _ _, a_commandWord _ _ _, b_commandWord _ _ _, rfl⟩

theorem EncodedFields.ceil (a b : Word) : EncodedFields.Statement (.ceil a b) :=
  ⟨op_commandWord _ _ _, a_commandWord _ _ _, b_commandWord _ _ _, rfl⟩

theorem EncodedFields.round (a b : Word) : EncodedFields.Statement (.round a b) :=
  ⟨op_commandWord _ _ _, a_commandWord _ _ _, b_commandWord _ _ _, rfl⟩

theorem EncodedFields.sqrt (a b : Word) : EncodedFields.Statement (.sqrt a b) :=
  ⟨op_commandWord _ _ _, a_commandWord _ _ _, b_commandWord _ _ _, rfl⟩

theorem EncodedFields.log2 (a b : Word) : EncodedFields.Statement (.log2 a b) :=
  ⟨op_commandWord _ _ _, a_commandWord _ _ _, b_commandWord _ _ _, rfl⟩

theorem EncodedFields.ln (a b : Word) : EncodedFields.Statement (.ln a b) :=
  ⟨op_commandWord _ _ _, a_commandWord _ _ _, b_commandWord _ _ _, rfl⟩

theorem EncodedFields.pow2 (a b : Word) : EncodedFields.Statement (.pow2 a b) :=
  ⟨op_commandWord _ _ _, a_commandWord _ _ _, b_commandWord _ _ _, rfl⟩

theorem EncodedFields.pow (a b : Word) : EncodedFields.Statement (.pow a b) :=
  ⟨op_commandWord _ _ _, a_commandWord _ _ _, b_commandWord _ _ _, rfl⟩

theorem EncodedFields.sin (a b : Word) : EncodedFields.Statement (.sin a b) :=
  ⟨op_commandWord _ _ _, a_commandWord _ _ _, b_commandWord _ _ _, rfl⟩

theorem EncodedFields.cos (a b : Word) : EncodedFields.Statement (.cos a b) :=
  ⟨op_commandWord _ _ _, a_commandWord _ _ _, b_commandWord _ _ _, rfl⟩

theorem EncodedFields.fastsin (a b : Word) : EncodedFields.Statement (.fastsin a b) :=
  ⟨op_commandWord _ _ _, a_commandWord _ _ _, b_commandWord _ _ _, rfl⟩

theorem EncodedFields.fastcos (a b : Word) : EncodedFields.Statement (.fastcos a b) :=
  ⟨op_commandWord _ _ _, a_commandWord _ _ _, b_commandWord _ _ _, rfl⟩

theorem EncodedFields.tan (a b : Word) : EncodedFields.Statement (.tan a b) :=
  ⟨op_commandWord _ _ _, a_commandWord _ _ _, b_commandWord _ _ _, rfl⟩

theorem EncodedFields.acos (a b : Word) : EncodedFields.Statement (.acos a b) :=
  ⟨op_commandWord _ _ _, a_commandWord _ _ _, b_commandWord _ _ _, rfl⟩

theorem EncodedFields.atan (a b : Word) : EncodedFields.Statement (.atan a b) :=
  ⟨op_commandWord _ _ _, a_commandWord _ _ _, b_commandWord _ _ _, rfl⟩

theorem EncodedFields.atan2 (a b : Word) : EncodedFields.Statement (.atan2 a b) :=
  ⟨op_commandWord _ _ _, a_commandWord _ _ _, b_commandWord _ _ _, rfl⟩

end Sys2Proof.Laws
end

