-- ==== Sys2Proof/Laws/Rom.lean ====
section
/-! SUPPORT. Facts about the ROM: its entries are unsigned numbers of their widths (R30), and the fuel of the
sine table's generator never runs out (R192). -/

namespace Sys2Proof.Machine

open Sys2Proof.Config

theorem romSin_nonneg (i : Nat) : 0 ≤ romSin i := by simp [romSin]

theorem romSin_lt (i : Nat) : romSin i < 2 ^ 33 := by
  have := (sinlut i).isLt
  unfold romSin
  omega

theorem romAtan_nonneg (i : Nat) : 0 ≤ romAtan i := by simp [romAtan]

theorem romAtan_lt (i : Nat) : romAtan i < 2 ^ 61 := by
  have := (ATAN_TAB.getD i 0).isLt
  unfold romAtan
  omega

/-- Once a term is zero the series is finished, with any fuel. -/
theorem sineSeries_zero (n th2 : Nat) (s : Int) (k : Nat) : sineSeries n th2 0 s k = s := by
  cases n <;> simp [sineSeries]

/-- Every term is at most half of the one before it, so `n` terms suffice for a term below `2^n`: more fuel
changes nothing. -/
theorem sineSeries_fuel (n m th2 : Nat) (hth : th2 ≤ 3 * 2 ^ 128) :
    ∀ (term : Nat) (s : Int) (k : Nat), 1 ≤ k → term < 2 ^ n →
      sineSeries (n + m) th2 term s k = sineSeries n th2 term s k := by
  induction n with
  | zero =>
    intro term s k _ ht
    have : term = 0 := by omega
    subst this
    rw [sineSeries_zero, sineSeries_zero]
  | succ n ih =>
    intro term s k hk ht
    rw [show n + 1 + m = n + m + 1 by omega]
    simp only [sineSeries]
    split
    · rfl
    · have h1 : term * th2 / 2 ^ 128 ≤ 3 * term := by
        apply Nat.div_le_of_le_mul
        nlinarith
      have h2 : 6 ≤ 2 * k * (2 * k + 1) := by nlinarith
      have h3 : term * th2 / 2 ^ 128 / (2 * k * (2 * k + 1)) ≤ 3 * term / 6 :=
        (Nat.div_le_div_right h1).trans (Nat.div_le_div_left h2 (by omega))
      have h4 : 2 ^ (n + 1) = 2 * 2 ^ n := by ring
      exact ih _ _ _ (by omega) (by omega)

/-- For an index of the table the fuel of the generator never runs out. -/
theorem sinlutValue_fuel (i m : Nat) (hi : i ≤ 131072) :
    sinlutValue i =
      asr (sineSeries (130 + m) (i * PI_Q128 / 2 ^ 18 * (i * PI_Q128 / 2 ^ 18) / 2 ^ 128)
        (i * PI_Q128 / 2 ^ 18) ((i * PI_Q128 / 2 ^ 18 : Nat) : Int) 1 + 2 ^ 95) 96 := by
  have hth : i * PI_Q128 / 2 ^ 18 ≤ 131072 * PI_Q128 / 2 ^ 18 :=
    Nat.div_le_div_right (Nat.mul_le_mul_right _ hi)
  have hb : 131072 * PI_Q128 / 2 ^ 18 = 0x1921FB54442D18469898CC51701B839A2 := by decide
  rw [hb] at hth
  have h2 : i * PI_Q128 / 2 ^ 18 * (i * PI_Q128 / 2 ^ 18) / 2 ^ 128 ≤ 3 * 2 ^ 128 := by
    apply Nat.div_le_of_le_mul
    calc i * PI_Q128 / 2 ^ 18 * (i * PI_Q128 / 2 ^ 18)
        ≤ 0x1921FB54442D18469898CC51701B839A2 * 0x1921FB54442D18469898CC51701B839A2 :=
          Nat.mul_le_mul hth hth
      _ ≤ 2 ^ 128 * (3 * 2 ^ 128) := by decide
  unfold sinlutValue
  rw [sineSeries_fuel 130 m _ h2 _ _ _ (by omega) (by
    calc i * PI_Q128 / 2 ^ 18 ≤ 0x1921FB54442D18469898CC51701B839A2 := hth
      _ < 2 ^ 130 := by decide)]

end Sys2Proof.Machine
end

