-- ==== Sys2Proof/Laws/Step.lean ====
section
/-! SUPPORT. What one step can do, once: the inversion lemma that every claim about steps cites instead of
unfolding the step. -/

namespace Sys2Proof.Machine

/-- What the unit can do at a rising edge (R20 to R22, R270, R276): one of seven cases, each with its
guard and its successor. -/
theorem clockEdge_cases (s : State) :
    (s.pins.reset = true ∧ clockEdge s = .next s.resetUnit) ∨
    (s.pins.reset = false ∧ s.phase = .idle ∧ s.pins.cmd_valid = true ∧
      clockEdge s = .next (s.acceptCommand s.pins.cmd_op s.pins.cmd_a s.pins.cmd_b)) ∨
    (s.pins.reset = false ∧ s.phase = .idle ∧ s.pins.cmd_valid = false ∧ clockEdge s = .next s) ∨
    (s.pins.reset = false ∧ s.phase = .busy ∧ s.wait = 0 ∧ clockEdge s = execute s) ∨
    (s.pins.reset = false ∧ s.phase = .busy ∧ s.wait ≠ 0 ∧ clockEdge s = .next s.tick) ∨
    (s.pins.reset = false ∧ s.phase = .done ∧ s.pins.rsp_ready = true ∧
      clockEdge s = .next s.deliver) ∨
    (s.pins.reset = false ∧ s.phase = .done ∧ s.pins.rsp_ready = false ∧ clockEdge s = .next s) := by
  unfold clockEdge
  rcases hr : s.pins.reset with _ | _
  · rcases hp : s.phase with _ | _ | _
    · rcases hv : s.pins.cmd_valid with _ | _ <;> simp
    · by_cases hw : s.wait = 0 <;> simp [hw]
    · rcases hv : s.pins.rsp_ready with _ | _ <;> simp
  · simp

/-- The host drives its next levels after whatever state the unit reached. -/
theorem thenHostDrives_next {o : Host.Outcome State Fault Refusal} {t : State} :
    thenHostDrives o = .next t ↔ ∃ u, o = .next u ∧ t = u.hostDrive := by
  cases o <;> simp [thenHostDrives, eq_comm]

/-- A step that answers a state kept the handshake, and is an edge of the unit followed by the host's next
levels. -/
theorem step_next {s t : State} :
    step s = .next t ↔
      s.breaksHandshake = false ∧ ∃ u, clockEdge s = .next u ∧ t = u.hostDrive := by
  unfold step clockCycle
  split
  · simp_all
  · rw [thenHostDrives_next]
    simp_all

/-- The condition that a broken handshake stands for. -/
theorem breaksHandshake_iff (s : State) :
    s.breaksHandshake = true ↔
      s.pins.cmd_valid = true ∧ s.pins.reset = false ∧ s.phase ≠ .idle ∧ s.nextPins.reset = false ∧
      s.pins.keepsOffer s.nextPins = false := by
  unfold State.breaksHandshake State.cmd_ready
  rcases hr : s.pins.reset <;> rcases hp : s.phase <;> simp [and_assoc]

/-- Levels that stay as they are keep every offer. -/
theorem breaksHandshake_of_plan_nil (s : State) (h : s.plan = []) : s.breaksHandshake = false := by
  rw [Bool.eq_false_iff, ne_eq, breaksHandshake_iff, s.nextPins_of_plan_nil h]
  simp only [HostPins.keepsOffer]
  rintro ⟨hv, -, -, -, hk⟩
  simp [hv] at hk

/-- A unit that accepts is not in the way of the handshake. -/
theorem breaksHandshake_of_idle (s : State) (h : s.phase = .idle) : s.breaksHandshake = false := by
  rw [Bool.eq_false_iff, ne_eq, breaksHandshake_iff]
  simp [h]

end Sys2Proof.Machine
end

