-- ==== Sys2Proof/Tests/Slice0.lean ====
section
/-! SUPPORT. The model's own tests. The words and the expected responses are the spec's: the words from R50 and
R55 (30_encoding.md), the responses from 95_test_vectors.md, 97_vectors_arithmetic.md and
98_vectors_transcendental.md. After them stand the witnesses: for every statement with hypotheses, a state and
operands that meet them, clause by clause. -/

set_option Elab.async false

namespace Sys2Proof.Tests

open Sys2Proof Sys2Proof.Machine

/-! ### Well-formedness: an ill-formed term for each check, refused -/

theorem test_reserved_codes_are_ill_formed :
    [0x05#8, 0x0F#8, 0x18#8, 0x1F#8, 0x28#8, 0x2F#8, 0x36#8, 0x3F#8, 0x45#8, 0x4F#8, 0x58#8, 0xFF#8].all
      (fun op => !OpCode.defined op) = true := by decide

theorem test_the_ends_of_the_defined_runs_are_well_formed :
    [0x00#8, 0x04#8, 0x10#8, 0x17#8, 0x20#8, 0x27#8, 0x30#8, 0x35#8, 0x40#8, 0x44#8, 0x50#8, 0x57#8].all
      (fun op => OpCode.defined op) = true := by decide

theorem test_forty_codes_are_defined :
    ((List.range 256).filter fun n => OpCode.defined (BitVec.ofNat 8 n)).length = 40 := by decide +kernel

theorem test_command_word_with_a_reserved_code_is_ill_formed :
    CommandWord.wellFormed 0x9900000001000000000000000200000000#136 = false := by decide

theorem test_command_word_of_mul_is_well_formed :
    CommandWord.wellFormed 0x2200000003000000000000000300000000#136 = true := by decide

/-- No term of `Instr` is ill-formed: a reserved code is a word, not a command. -/
theorem test_every_command_is_well_formed (i : Instr) : i.wellFormed = true :=
  (show Laws.EncodedFields.Statement i by
    cases i <;> exact ⟨op_commandWord _ _ _, a_commandWord _ _ _, b_commandWord _ _ _, rfl⟩).2.2.2

theorem test_error_response_with_a_value_is_ill_formed :
    ResponseWord.wellFormed (1#2 ++ 5#64) = false := by decide

theorem test_error_response_with_zero_is_well_formed :
    ResponseWord.wellFormed (1#2 ++ 0#64) = true := by decide

/-! ### Decoding: one written word for every command (R50, R55) -/

theorem test_decode_representation_and_constants :
    decode 0x0080123456789ABCDFFC962FC962FC9637#136 = .instr (.fromraw 0x80123456789ABCDF 0xFC962FC962FC9637) ∧
    decode 0x10813579BE02468ABFFA4FA4FA4FA4FA67#136 = .instr (.czero 0x813579BE02468ABF 0xFA4FA4FA4FA4FA67) ∧
    decode 0x118147AE147AE1479DF8091A2B3C4D5E88#136 = .instr (.cone 0x8147AE147AE1479D 0xF8091A2B3C4D5E88) ∧
    decode 0x128159E26AF37C047BF5C28F5C28F5C2A9#136 = .instr (.cmin 0x8159E26AF37C047B 0xF5C28F5C28F5C2A9) ∧
    decode 0x13816C16C16C16C159F37C048D159E26CA#136 = .instr (.cmax 0x816C16C16C16C159 0xF37C048D159E26CA) ∧
    decode 0x14817E4B17E4B17E37F13579BE02468AEB#136 = .instr (.cpi 0x817E4B17E4B17E37 0xF13579BE02468AEB) ∧
    decode 0x1581907F6E5D4C3B15EEEEEEEEEEEEEF0C#136 = .instr (.cpio2 0x81907F6E5D4C3B15 0xEEEEEEEEEEEEEF0C) ∧
    decode 0x1681A2B3C4D5E6F7F3ECA8641FDB97532D#136 = .instr (.cpi2 0x81A2B3C4D5E6F7F3 0xECA8641FDB97532D) ∧
    decode 0x1781B4E81B4E81B4D1EA61D950C83FB74E#136 = .instr (.cprec 0x81B4E81B4E81B4D1 0xEA61D950C83FB74E) := by decide +kernel

theorem test_decode_conversions :
    decode 0x01802468ACF13579BDFC962FC962FC9638#136 = .instr (.fromint 0x802468ACF13579BD 0xFC962FC962FC9638) ∧
    decode 0x0280369D0369D0369BFA4FA4FA4FA4FA59#136 = .instr (.toint 0x80369D0369D0369B 0xFA4FA4FA4FA4FA59) ∧
    decode 0x038048D159E26AF379F8091A2B3C4D5E7A#136 = .instr (.fromf64 0x8048D159E26AF379 0xF8091A2B3C4D5E7A) ∧
    decode 0x04805B05B05B05B057F5C28F5C28F5C29B#136 = .instr (.tof64 0x805B05B05B05B057 0xF5C28F5C28F5C29B) := by decide +kernel

theorem test_decode_arithmetic :
    decode 0x208258BF258BF2589FFC962FC962FC9657#136 = .instr (.add 0x8258BF258BF2589F 0xFC962FC962FC9657) ∧
    decode 0x21826AF37C048D157DFA4FA4FA4FA4FA78#136 = .instr (.sub 0x826AF37C048D157D 0xFA4FA4FA4FA4FA78) ∧
    decode 0x22827D27D27D27D25BF8091A2B3C4D5E99#136 = .instr (.mul 0x827D27D27D27D25B 0xF8091A2B3C4D5E99) ∧
    decode 0x23828F5C28F5C28F39F5C28F5C28F5C2BA#136 = .instr (.div 0x828F5C28F5C28F39 0xF5C28F5C28F5C2BA) ∧
    decode 0x2482A1907F6E5D4C17F37C048D159E26DB#136 = .instr (.mod 0x82A1907F6E5D4C17 0xF37C048D159E26DB) ∧
    decode 0x2582B3C4D5E6F808F5F13579BE02468AFC#136 = .instr (.neg 0x82B3C4D5E6F808F5 0xF13579BE02468AFC) ∧
    decode 0x2682C5F92C5F92C5D3EEEEEEEEEEEEEF1D#136 = .instr (.cmp 0x82C5F92C5F92C5D3 0xEEEEEEEEEEEEEF1D) ∧
    decode 0x2782D82D82D82D82B1ECA8641FDB97533E#136 = .instr (.eq 0x82D82D82D82D82B1 0xECA8641FDB97533E) := by decide +kernel

theorem test_decode_rounding_and_sign :
    decode 0x30837C048D159E267FFC962FC962FC9667#136 = .instr (.sign 0x837C048D159E267F 0xFC962FC962FC9667) ∧
    decode 0x31838E38E38E38E35DFA4FA4FA4FA4FA88#136 = .instr (.abs 0x838E38E38E38E35D 0xFA4FA4FA4FA4FA88) ∧
    decode 0x3283A06D3A06D3A03BF8091A2B3C4D5EA9#136 = .instr (.fastabs 0x83A06D3A06D3A03B 0xF8091A2B3C4D5EA9) ∧
    decode 0x3383B2A1907F6E5D19F5C28F5C28F5C2CA#136 = .instr (.floor 0x83B2A1907F6E5D19 0xF5C28F5C28F5C2CA) ∧
    decode 0x3483C4D5E6F80919F7F37C048D159E26EB#136 = .instr (.ceil 0x83C4D5E6F80919F7 0xF37C048D159E26EB) ∧
    decode 0x3583D70A3D70A3D6D5F13579BE02468B0C#136 = .instr (.round 0x83D70A3D70A3D6D5 0xF13579BE02468B0C) := by decide +kernel

theorem test_decode_roots_logs_powers :
    decode 0x40849F49F49F49F45FFC962FC962FC9677#136 = .instr (.sqrt 0x849F49F49F49F45F 0xFC962FC962FC9677) ∧
    decode 0x4184B17E4B17E4B13DFA4FA4FA4FA4FA98#136 = .instr (.log2 0x84B17E4B17E4B13D 0xFA4FA4FA4FA4FA98) ∧
    decode 0x4284C3B2A1907F6E1BF8091A2B3C4D5EB9#136 = .instr (.ln 0x84C3B2A1907F6E1B 0xF8091A2B3C4D5EB9) ∧
    decode 0x4384D5E6F8091A2AF9F5C28F5C28F5C2DA#136 = .instr (.pow2 0x84D5E6F8091A2AF9 0xF5C28F5C28F5C2DA) ∧
    decode 0x4484E81B4E81B4E7D7F37C048D159E26FB#136 = .instr (.pow 0x84E81B4E81B4E7D7 0xF37C048D159E26FB) := by decide +kernel

theorem test_decode_trigonometry :
    decode 0x5085C28F5C28F5C23FFC962FC962FC9687#136 = .instr (.sin 0x85C28F5C28F5C23F 0xFC962FC962FC9687) ∧
    decode 0x5185D4C3B2A1907F1DFA4FA4FA4FA4FAA8#136 = .instr (.cos 0x85D4C3B2A1907F1D 0xFA4FA4FA4FA4FAA8) ∧
    decode 0x5285E6F8091A2B3BFBF8091A2B3C4D5EC9#136 = .instr (.fastsin 0x85E6F8091A2B3BFB 0xF8091A2B3C4D5EC9) ∧
    decode 0x5385F92C5F92C5F8D9F5C28F5C28F5C2EA#136 = .instr (.fastcos 0x85F92C5F92C5F8D9 0xF5C28F5C28F5C2EA) ∧
    decode 0x54860B60B60B60B5B7F37C048D159E270B#136 = .instr (.tan 0x860B60B60B60B5B7 0xF37C048D159E270B) ∧
    decode 0x55861D950C83FB7295F13579BE02468B2C#136 = .instr (.acos 0x861D950C83FB7295 0xF13579BE02468B2C) ∧
    decode 0x56862FC962FC962F73EEEEEEEEEEEEEF4D#136 = .instr (.atan 0x862FC962FC962F73 0xEEEEEEEEEEEEEF4D) ∧
    decode 0x578641FDB97530EC51ECA8641FDB97536E#136 = .instr (.atan2 0x8641FDB97530EC51 0xECA8641FDB97536E) := by decide +kernel

/-- The bits of R55's row of MUL, written out: the code `00100010`, the first operand, the second. -/
theorem test_mul_word_bit_by_bit :
    decode (0b00100010#8 ++ 0x0000000300000000#64 ++ 0x0000000400000000#64) =
      .instr (.mul 0x300000000 0x400000000) := by decide

theorem test_reserved_code_is_refused_by_name :
    decode 0x2800000002000000000000000300000000#136 = .reservedCode 0x28 := by decide

theorem test_table_word_of_atan2 :
    decodeTableWord 136 0x5700000003000000000000000400000000 =
      some (.atan2 0x300000000 0x400000000) := by decide

theorem test_table_word_with_a_reserved_code :
    decodeTableWord 136 0x1F000000000000000000000000000000FF = none := by decide

/-! ### Numbers of the spec -/

/-- The constant in the statements about COS is the 96-bit half of pi of 00_scope.md section 4. -/
theorem test_half_pi_at_96_bits : Config.PIO2_Q96 = 0x1921FB54442D18469898CC517 := by decide

/-- Entries of the table of R191. -/
theorem test_sine_table_entries :
    [0, 1, 8, 65536, 131070, 131071, 131072].map romSin =
      [0, 0xC910, 0x6487F, 0xB504F334, 0xFFFFFFFF, 0x100000000, 0x100000000] := by decide +kernel

/-! ### One step: the response to a command word placed in the latch -/

/-- The error code and the result that the unit offers after the step that runs the word `w`. -/
def responseTo (w : Nat) : Option (ErrCode × Word) :=
  match step (State.reset.withFetchWord 136 w) with
  | .next t => if t.rsp_valid then some (t.err_q, t.res_q) else none
  | .fault _ => none
  | .refused _ => none

theorem test_fromraw_passes_the_bits_through :
    responseTo 0x000123456789ABCDEF00000000DEADBEEF = some (0, 0x0123456789ABCDEF) := by decide +kernel

theorem test_fromint_wraps_below_the_range :
    responseTo 0x01FFFFFFFF7FFFFFFF0000000000000000 = some (0, 0x7FFFFFFF00000000) := by decide +kernel

theorem test_fromint_keeps_the_low_bits :
    responseTo 0x0100000001234567890000000000000000 = some (0, 0x2345678900000000) := by decide +kernel

theorem test_toint_floors_a_negative_value :
    responseTo 0x02FFFFFFFE800000000000000000000000 = some (0, 0xFFFFFFFFFFFFFFFE) := by decide +kernel

theorem test_toint_floors_the_largest_value :
    responseTo 0x027FFFFFFFFFFFFFFF0000000000000000 = some (0, 0x000000007FFFFFFF) := by decide +kernel

theorem test_fromf64_rounds_a_tie_to_even :
    responseTo 0x033E0C0000000000000000000000000000 = some (0, 0x0000000000000004) := by decide +kernel

theorem test_fromf64_clamps_below :
    responseTo 0x03C1E00000000000010000000000000000 = some (0, 0x8000000000000000) := by decide +kernel

theorem test_tof64_rounds_a_tie_to_even :
    responseTo 0x0400200000000000030000000000000000 = some (0, 0x4140000000000002) := by decide +kernel

theorem test_tof64_renormalises_after_the_carry :
    responseTo 0x047FFFFFFFFFFFFE000000000000000000 = some (0, 0x41E0000000000000) := by decide +kernel

theorem test_czero_ignores_its_operands :
    responseTo 0x1000000000000011110000000000002222 = some (0, 0x0000000000000000) := by decide +kernel

theorem test_cone_is_one :
    responseTo 0x1100000000000000000000000000000000 = some (0, 0x0000000100000000) := by decide +kernel

theorem test_cmin_is_the_smallest :
    responseTo 0x1200000000000000000000000000000000 = some (0, 0x8000000000000000) := by decide +kernel

theorem test_cmax_is_the_largest :
    responseTo 0x1300000000000000000000000000000000 = some (0, 0x7FFFFFFFFFFFFFFF) := by decide +kernel

theorem test_cpi_is_pi :
    responseTo 0x1400000000000000000000000000000000 = some (0, 0x00000003243F6A88) := by decide +kernel

theorem test_cpio2_is_half_pi :
    responseTo 0x1500000000000000000000000000000000 = some (0, 0x00000001921FB544) := by decide +kernel

theorem test_cpi2_is_two_pi :
    responseTo 0x16FFFFFFFFFFFFFFFFFFFFFFFFFFFFFFFF = some (0, 0x00000006487ED511) := by decide +kernel

theorem test_cprec_is_one_unit :
    responseTo 0x1700000000000000000000000000000000 = some (0, 0x0000000000000001) := by decide +kernel

theorem test_add_saturates_below :
    responseTo 0x208000000000000000FFFFFFFFFFFFFFFF = some (0, 0x8000000000000000) := by decide +kernel

theorem test_add_cancels :
    responseTo 0x20FFFFFFFE800000000000000180000000 = some (0, 0x0000000000000000) := by decide +kernel

theorem test_sub_saturates_on_the_exact_difference :
    responseTo 0x2100000000000000008000000000000000 = some (0, 0x7FFFFFFFFFFFFFFF) := by decide +kernel

theorem test_sub_goes_below_zero :
    responseTo 0x2100000005000000000000000780000000 = some (0, 0xFFFFFFFD80000000) := by decide +kernel

theorem test_mul_rounds_a_negative_tie_to_even :
    responseTo 0x22FFFFFFFFFFFFFFFD0000000080000000 = some (0, 0xFFFFFFFFFFFFFFFE) := by decide +kernel

theorem test_mul_saturates_after_rounding :
    responseTo 0x228000000000000000FFFFFFFF00000000 = some (0, 0x7FFFFFFFFFFFFFFF) := by decide +kernel

theorem test_div_truncates_toward_zero :
    responseTo 0x23FFFFFFFF000000000000000300000000 = some (0, 0xFFFFFFFFAAAAAAAB) := by decide +kernel

theorem test_div_by_zero :
    responseTo 0x2380000000000000000000000000000000 = some (1, 0x0000000000000000) := by decide +kernel

theorem test_mod_has_the_sign_of_the_dividend :
    responseTo 0x24FFFFFFFA800000000000000200000000 = some (0, 0xFFFFFFFE80000000) := by decide +kernel

theorem test_mod_of_the_smallest_by_minus_one_unit :
    responseTo 0x248000000000000000FFFFFFFFFFFFFFFF = some (0, 0x0000000000000000) := by decide +kernel

theorem test_neg_saturates :
    responseTo 0x2580000000000000000000000000000000 = some (0, 0x7FFFFFFFFFFFFFFF) := by decide +kernel

theorem test_neg_ignores_the_second_operand :
    responseTo 0x250000000000000001000000000000FFFF = some (0, 0xFFFFFFFFFFFFFFFF) := by decide +kernel

theorem test_cmp_is_signed :
    responseTo 0x2680000000000000007FFFFFFFFFFFFFFF = some (0, 0xFFFFFFFFFFFFFFFF) := by decide +kernel

theorem test_cmp_answers_an_unscaled_one :
    responseTo 0x2600000002800000000000000180000000 = some (0, 0x0000000000000001) := by decide +kernel

theorem test_eq_sees_the_sign_bit :
    responseTo 0x2700000000000000008000000000000000 = some (0, 0x0000000000000000) := by decide +kernel

theorem test_eq_answers_an_unscaled_one :
    responseTo 0x2700000002800000000000000280000000 = some (0, 0x0000000000000001) := by decide +kernel

theorem test_sign_of_a_negative_value :
    responseTo 0x30FFFFFFFD800000000000000000000000 = some (0, 0xFFFFFFFFFFFFFFFF) := by decide +kernel

theorem test_sign_answers_an_unscaled_one :
    responseTo 0x30000000010000000000000000000000FF = some (0, 0x0000000000000001) := by decide +kernel

theorem test_abs_saturates :
    responseTo 0x3180000000000000000000000000000000 = some (0, 0x7FFFFFFFFFFFFFFF) := by decide +kernel

theorem test_abs_negates :
    responseTo 0x31FFFFFFFD800000000000000000000000 = some (0, 0x0000000280000000) := by decide +kernel

theorem test_fastabs_leaves_the_smallest :
    responseTo 0x3280000000000000000000000000000000 = some (0, 0x8000000000000000) := by decide +kernel

theorem test_fastabs_negates :
    responseTo 0x3280000000000000010000000000000000 = some (0, 0x7FFFFFFFFFFFFFFF) := by decide +kernel

theorem test_floor_goes_down_from_minus_one_unit :
    responseTo 0x33FFFFFFFFFFFFFFFF0000000000000000 = some (0, 0xFFFFFFFF00000000) := by decide +kernel

theorem test_floor_never_saturates :
    responseTo 0x337FFFFFFFFFFFFFFF0000000000000000 = some (0, 0x7FFFFFFF00000000) := by decide +kernel

theorem test_ceil_saturates :
    responseTo 0x347FFFFFFF000000010000000000000000 = some (0, 0x7FFFFFFFFFFFFFFF) := by decide +kernel

theorem test_ceil_goes_up :
    responseTo 0x34FFFFFFFD800000000000000000000000 = some (0, 0xFFFFFFFE00000000) := by decide +kernel

theorem test_round_takes_a_tie_to_the_even_integer :
    responseTo 0x3500000002800000000000000000000000 = some (0, 0x0000000200000000) := by decide +kernel

theorem test_round_saturates :
    responseTo 0x357FFFFFFF800000000000000000000000 = some (0, 0x7FFFFFFFFFFFFFFF) := by decide +kernel

theorem test_sqrt_floors :
    responseTo 0x4000000002000000000000000000000000 = some (0, 0x000000016A09E667) := by decide +kernel

theorem test_sqrt_of_a_negative_value :
    responseTo 0x4080000000000000000000000000000000 = some (2, 0x0000000000000000) := by decide +kernel

theorem test_log2_of_a_small_value :
    responseTo 0x4100000000000000030000000000000000 = some (0, 0xFFFFFFE195C01A39) := by decide +kernel

theorem test_log2_of_the_largest_value :
    responseTo 0x417FFFFFFFFFFFFFFF0000000000000000 = some (0, 0x0000001EFFFFFFFF) := by decide +kernel

theorem test_ln_of_e :
    responseTo 0x4200000002B7E151620000000000000000 = some (0, 0x00000000FFFFFFFE) := by decide +kernel

theorem test_ln_of_a_negative_value :
    responseTo 0x42FFFFFFFFFFFFFFFF0000000000000000 = some (2, 0x0000000000000000) := by decide +kernel

theorem test_pow2_just_below_saturation :
    responseTo 0x430000001EFFFFFFFF0000000000000000 = some (0, 0x7FFFFFFFA746F3F7) := by decide +kernel

theorem test_pow2_near_its_lowest_value :
    responseTo 0x43FFFFFFE0FFFFFFFF0000000000000000 = some (0, 0x0000000000000001) := by decide +kernel

theorem test_pow_goes_through_log2_mul_and_pow2 :
    responseTo 0x4400000003000000000000000300000000 = some (0, 0x0000001AFFFFFFC8) := by decide +kernel

theorem test_pow_of_zero_to_a_negative_power :
    responseTo 0x440000000000000000FFFFFFFFFFFFFFFF = some (1, 0x0000000000000000) := by decide +kernel

theorem test_sin_just_past_pi :
    responseTo 0x5000000003243F6A8A0000000000000000 = some (0, 0xFFFFFFFFFFFFFFFF) := by decide +kernel

theorem test_sin_of_the_smallest_value :
    responseTo 0x5080000000000000000000000000000000 = some (0, 0x00000000F8A7C89F) := by decide +kernel

theorem test_cos_just_past_half_pi :
    responseTo 0x5100000001921FB5460000000000000000 = some (0, 0xFFFFFFFFFFFFFFFF) := by decide +kernel

theorem test_cos_of_the_smallest_value :
    responseTo 0x5180000000000000000000000000000000 = some (0, 0x000000003CE185A9) := by decide +kernel

theorem test_fastsin_at_the_edge_of_a_coarse_step :
    responseTo 0x5200000000000324400000000000000000 = some (0, 0x000000000006487F) := by decide +kernel

theorem test_fastsin_is_odd :
    responseTo 0x52FFFFFFFF000000000000000000000000 = some (0, 0xFFFFFFFF2896A45B) := by decide +kernel

theorem test_fastcos_of_one :
    responseTo 0x5300000001000000000000000000000000 = some (0, 0x000000008A534095) := by decide +kernel

theorem test_fastcos_of_the_smallest_value :
    responseTo 0x5380000000000000000000000000000000 = some (0, 0x000000003CE482B0) := by decide +kernel

theorem test_tan_saturates_past_half_pi :
    responseTo 0x5400000001921FB5460000000000000000 = some (0, 0x8000000000000000) := by decide +kernel

theorem test_tan_where_the_cosine_is_zero :
    responseTo 0x5400000001921FB5450000000000000000 = some (1, 0x0000000000000000) := by decide +kernel

theorem test_acos_near_minus_one :
    responseTo 0x55FFFFFFFF000000010000000000000000 = some (0, 0x00000003243E007F) := by decide +kernel

theorem test_acos_just_above_one :
    responseTo 0x5500000001000000010000000000000000 = some (2, 0x0000000000000000) := by decide +kernel

theorem test_atan_of_a_small_value :
    responseTo 0x5600000000000100000000000000000000 = some (0, 0x0000000000010000) := by decide +kernel

theorem test_atan_of_the_smallest_value :
    responseTo 0x5680000000000000000000000000000000 = some (0, 0xFFFFFFFE6DE04ABE) := by decide +kernel

theorem test_atan2_in_the_first_quadrant :
    responseTo 0x5700000003000000000000000400000000 = some (0, 0x00000000A4BC7D19) := by decide +kernel

theorem test_atan2_in_the_third_quadrant :
    responseTo 0x57FFFFFFFFFFFFFFFF8000000000000000 = some (0, 0xFFFFFFFCDBC09578) := by decide +kernel

theorem test_reserved_code_answers_illegal_command :
    responseTo 0x0F00000001000000000000000100000000 = some (3, 0) := by decide +kernel

/-! ### Small states for the witnesses -/

/-- The levels of a host that offers the command and takes any response. -/
def offer (op : OpCode) (a b : Word) : HostPins :=
  { reset := false, cmd_valid := true, cmd_op := op, cmd_a := a, cmd_b := b, rsp_ready := true }

/-- IDLE, a command offered, which takes three edges. -/
def offered (op : OpCode) (a b : Word) : State :=
  { State.reset with pins := offer op a b, latency := [{ op := op, a := a, b := b, extra := 2 }] }

/-- BUSY with a command that still waits for `w` edges beyond the next. -/
def working (op : OpCode) (a b : Word) (w : Nat) : State :=
  { State.reset with
    phase := .busy, op_q := op, a_q := a, b_q := b, wait := w,
    latency := [{ op := op, a := a, b := b, extra := 2 }] }

/-- DONE with a response. -/
def answered (op : OpCode) (a b : Word) (err : ErrCode) (res : Word) : State :=
  { State.reset with phase := .done, op_q := op, a_q := a, b_q := b, err_q := err, res_q := res }

/-! ### Witnesses -/

/-- Boundary codes of all six gaps, and a code beside each. -/
theorem witness_DecoderRefusesExactlyTheReservedCodes :
    ([0x05, 0x0F, 0x18, 0x1F, 0x28, 0x2F, 0x36, 0x3F, 0x45, 0x4F, 0x58, 0xFF].all fun n =>
      decode (commandWord (BitVec.ofNat 8 n) 1 2) == .reservedCode (BitVec.ofNat 8 n)) = true ∧
    ([0x04, 0x10, 0x17, 0x20, 0x27, 0x30, 0x35, 0x40, 0x44, 0x50, 0x57].all fun n =>
      decode (commandWord (BitVec.ofNat 8 n) 1 2) != .reservedCode (BitVec.ofNat 8 n)) = true := by
  decide +kernel

theorem witness_UnusedOperandFieldsAreIgnored_no_operand :
    (Instr.czero 1 2).opcode = (Instr.czero 3 4).opcode ∧ 0x10 ≤ (Instr.czero 1 2).opcode.toNat ∧
    (Instr.cprec 1 2).opcode = (Instr.cprec 3 4).opcode ∧ (Instr.cprec 1 2).opcode.toNat ≤ 0x17 := by decide

theorem witness_UnusedOperandFieldsAreIgnored_one_operand :
    (Instr.abs 1 2).opcode = (Instr.abs 1 4).opcode ∧ (Instr.abs 1 2).opA = (Instr.abs 1 4).opA ∧
    (Instr.abs 1 2).opcode.toNat ∉ [0x20, 0x21, 0x22, 0x23, 0x24, 0x26, 0x27, 0x44, 0x57] := by decide

theorem witness_UnusedOperandFieldsAreIgnored_two_operands :
    (Instr.atan2 1 2).opcode.toNat ∈ [0x20, 0x21, 0x22, 0x23, 0x24, 0x26, 0x27, 0x44, 0x57] ∧
    (Instr.atan2 1 2).opB = 2 := by decide

theorem witness_StepRunsTheLatchedCommand :
    (working 0x20 1 2 0).phase = .busy ∧ (working 0x20 1 2 0).wait = 0 ∧
    (working 0x20 1 2 0).pins.reset = false ∧ (working 0x20 1 2 0).breaksHandshake = false ∧
    decode (commandWord (working 0x20 1 2 0).op_q (working 0x20 1 2 0).a_q (working 0x20 1 2 0).b_q) =
      .instr (.add 1 2) := by decide

theorem witness_AcceptLatchesTheOfferedCommand :
    (offered 0x20 1 2).phase = .idle ∧ (offered 0x20 1 2).pins.reset = false ∧
    (offered 0x20 1 2).pins.cmd_valid = true ∧ (offered 0x20 1 2).extraEdges 0x20 1 2 = 2 := by decide

theorem witness_DeliverHandsOverTheResponse :
    let s := { answered 0x20 1 2 0 3 with pins := offer 0x20 7 8 }
    s.phase = .done ∧ s.pins.reset = false ∧ s.pins.rsp_ready = true ∧ s.breaksHandshake = false := by
  decide

theorem witness_ResetStepWhateverThePhase :
    ({ working 0x20 1 2 1 with pins := { offer 0x20 7 8 with reset := true } }).pins.reset = true ∧
    ({ answered 0x20 1 2 0 3 with pins := { offer 0x20 7 8 with reset := true } }).pins.reset = true := by
  decide

theorem witness_OfferedResponseIsHeld :
    let s := answered 0x20 1 2 0 3
    s.phase = .done ∧ s.pins.reset = false ∧ s.pins.rsp_ready = false ∧
      ∃ t, step s = .next t ∧ t.pins.reset = false := by
  exact ⟨rfl, rfl, rfl, _, rfl, rfl⟩

/-- The next levels are those of reset: the clause on the port does not speak, the one on the latch does. -/
theorem witness_OfferedResponseIsHeld_before_a_reset :
    let s := { answered 0x20 1 2 0 3 with plan := [{ HostPins.quiet with reset := true }] }
    s.phase = .done ∧ s.pins.reset = false ∧ s.pins.rsp_ready = false ∧
      ∃ t, step s = .next t ∧ t.pins.reset = true := by
  exact ⟨rfl, rfl, rfl, _, rfl, rfl⟩

/-- A withdrawn offer, a changed offer and a kept offer while the unit works. -/
theorem witness_StepIsRefusedOnlyForABrokenOffer :
    ({ working 0x20 1 2 0 with pins := offer 0x22 7 8, plan := [HostPins.quiet] }).breaksHandshake = true ∧
    ({ working 0x20 1 2 0 with pins := offer 0x22 7 8, plan := [offer 0x22 7 9] }).breaksHandshake = true ∧
    ({ working 0x20 1 2 0 with pins := offer 0x22 7 8, plan := [offer 0x22 7 8] }).breaksHandshake = false ∧
    ({ offered 0x20 1 2 with plan := [offer 0x22 7 9] }).breaksHandshake = false := by decide

theorem witness_LatchesAreWrittenOnlyByTheirSteps :
    (∃ t, step (working 0x20 1 2 1) = .next t) ∧ (working 0x20 1 2 1).commandTransfer = none ∧
    (working 0x20 1 2 1).pins.reset = false ∧
    ¬ ((working 0x20 1 2 1).phase = .busy ∧ (working 0x20 1 2 1).wait = 0) :=
  ⟨⟨_, rfl⟩, by decide⟩

/-- A command for each row of R242, each with an answer. -/
theorem witness_ErrorCausesAreExactlyTheListed :
    [responseTo 0x2300000001000000000000000000000000, responseTo 0x2400000001000000000000000000000000,
      responseTo 0x440000000000000000FFFFFFFFFFFFFFFF, responseTo 0x5400000001921FB5440000000000000000] =
      [some (1, 0), some (1, 0), some (1, 0), some (1, 0)] ∧
    [responseTo 0x40FFFFFFFFFFFFFFFF0000000000000000, responseTo 0x4100000000000000000000000000000000,
      responseTo 0x4200000000000000000000000000000000, responseTo 0x5500000001000000010000000000000000,
      responseTo 0x55FFFFFFFEFFFFFFFF0000000000000000, responseTo 0x44FFFFFFFFFFFFFFFF0000000000000001,
      responseTo 0x037FF00000000000010000000000000000] =
      [some (2, 0), some (2, 0), some (2, 0), some (2, 0), some (2, 0), some (2, 0), some (2, 0)] := by
  decide +kernel

theorem witness_ErrorCarriesTheZeroWord :
    ∃ t, execute (working 0x23 1 0 0) = .next t ∧ t.err_q ≠ 0 := ⟨_, rfl, by decide⟩

/-- Both ends of every gap. -/
theorem witness_ReservedCodeAnswersIllegalCommand :
    (5 ≤ (working 0x05 1 2 0).op_q.toNat ∧ (working 0x0F 1 2 0).op_q.toNat ≤ 0x0F) ∧
    (0x18 ≤ (working 0x18 1 2 0).op_q.toNat ∧ (working 0x1F 1 2 0).op_q.toNat ≤ 0x1F) ∧
    (0x28 ≤ (working 0x28 1 2 0).op_q.toNat ∧ (working 0x2F 1 2 0).op_q.toNat ≤ 0x2F) ∧
    (0x36 ≤ (working 0x36 1 2 0).op_q.toNat ∧ (working 0x3F 1 2 0).op_q.toNat ≤ 0x3F) ∧
    (0x45 ≤ (working 0x45 1 2 0).op_q.toNat ∧ (working 0x4F 1 2 0).op_q.toNat ≤ 0x4F) ∧
    0x58 ≤ (working 0x58 1 2 0).op_q.toNat ∧ 0x58 ≤ (working 0xFF 1 2 0).op_q.toNat := by decide

theorem witness_StepKeepsTheInvariant_busy :
    (working 0x20 1 2 2).Inv ∧ ∃ t, step (working 0x20 1 2 2) = .next t :=
  ⟨⟨by decide, by decide, fun h => absurd h (by decide)⟩, _, rfl⟩

theorem witness_StepKeepsTheInvariant_done :
    (answered 0x20 1 2 0 3).Inv ∧ ∃ t, step (answered 0x20 1 2 0 3) = .next t :=
  ⟨⟨by decide, by decide, fun _ => rfl⟩, _, rfl⟩

theorem witness_OfferedResponseIsWellFormed :
    (answered 0x23 1 0 1 0).Inv ∧ ∃ rw, (answered 0x23 1 0 1 0).response = some rw :=
  ⟨⟨by decide, by decide, fun _ => rfl⟩, _, rfl⟩

/-- Two states that differ in every latch the phase does not use: one pair that steps, one that is refused. -/
theorem witness_UnusedLatchesCannotBeObserved :
    State.SameLive (offered 0x20 1 2) { offered 0x20 1 2 with op_q := 9, a_q := 8, res_q := 7, err_q := 1 } ∧
    State.SameLive { working 0x20 1 2 0 with pins := offer 0x22 7 8, plan := [HostPins.quiet] }
      { working 0x20 1 2 0 with pins := offer 0x22 7 8, plan := [HostPins.quiet], res_q := 7 } ∧
    (∃ t, step (offered 0x20 1 2) = .next t) ∧
    ∃ r, step { working 0x20 1 2 0 with pins := offer 0x22 7 8, plan := [HostPins.quiet] } = .refused r :=
  ⟨by unfold State.SameLive; decide, by unfold State.SameLive; decide, ⟨_, rfl⟩, _, rfl⟩

theorem witness_BusyUnitAnswersAfterItsWait :
    (working 0x20 1 2 2).phase = .busy ∧ (working 0x20 1 2 2).pins.reset = false ∧
    (working 0x20 1 2 2).plan = [] := by decide

theorem witness_TransactionAnswersAfterItsLatency :
    let s := offered 0x20 1 2
    s.phase = .idle ∧ s.pins.reset = false ∧ s.pins.cmd_valid = true ∧ s.plan = [] ∧
      s.latencyOf s.pins.cmd_op s.pins.cmd_a s.pins.cmd_b = 3 := by decide

/-- Two units with different latencies and histories that are offered the same command. -/
theorem witness_SameCommandSameResponse :
    let s := offered 0x20 1 2
    let t := { offered 0x20 1 2 with latency := [], op_q := 9, res_q := 7 }
    s.phase = .idle ∧ t.phase = .idle ∧ s.plan = [] ∧ t.plan = [] ∧ s.pins.reset = false ∧
    t.pins.reset = false ∧ s.pins.cmd_valid = true ∧ t.pins.cmd_valid = true ∧ s.pins = t.pins ∧
    s.latencyOf 0x20 1 2 ≠ t.latencyOf 0x20 1 2 := by decide

/-- A NaN, an infinity, a subnormal, and normal numbers at both ends and at both sides of the exponent 1043. -/
theorem witness_FromF64RoundsAndClamps :
    let E := fun a : Word => (a.extractLsb' 52 11).toNat
    let M := fun a : Word => (a.extractLsb' 0 52).toNat
    (E 0x7FF0000000000001 = 2047 ∧ M 0x7FF0000000000001 ≠ 0) ∧
    (E 0xFFF0000000000000 = 2047 ∧ M 0xFFF0000000000000 = 0) ∧
    E 0x800FFFFFFFFFFFFF = 0 ∧ E 0x0010000000000000 = 1 ∧ E 0x7FEFFFFFFFFFFFFF = 2046 ∧
    E 0x4130000000000000 = 1043 ∧ E 0x412FFFFFFFFFFFFF = 1042 := by decide

/-- Zero; magnitudes whose highest bits are 52 and 53; one that renormalises and one that does not. -/
theorem witness_ToF64RoundsToNearestEven :
    (0x0010000000000000#64).toInt.natAbs = 2 ^ 52 ∧ (0x0020000000000000#64).toInt.natAbs = 2 ^ 53 ∧
    responseTo 0x047FFFFFFFFFFFFE000000000000000000 = some (0, 0x41E0000000000000) ∧
    responseTo 0x047FFFFFFFFFFFFBFF0000000000000000 = some (0, 0x41DFFFFFFFFFFFFF) ∧
    responseTo 0x0400000000000000000000000000000000 = some (0, 0) := by decide +kernel

theorem witness_SmallValuesSurviveTheF64RoundTrip :
    (0x0020000000000000#64).toInt.natAbs ≤ 2 ^ 53 ∧ (0xFFE0000000000000#64).toInt.natAbs ≤ 2 ^ 53 := by decide

theorem witness_DivTruncatesTowardZeroThenSaturates :
    (0#64 : Word) = 0 ∧ (1#64 : Word) ≠ 0 ∧ (0x8000000000000000#64 : Word) ≠ 0 := by decide

theorem witness_ModIsTheExactTruncatingRemainder :
    (0#64 : Word) = 0 ∧ (0xFFFFFFFFFFFFFFFF#64 : Word) ≠ 0 ∧ (0x8000000000000000#64 : Word) ≠ 0 := by decide

theorem witness_ArithmeticIdentitiesHold :
    (1#64 : Word) ≠ 0 ∧ (0x8000000000000000#64 : Word) ≠ 0 ∧
    (0x8000000000000001#64 : Word) ≠ 0x8000000000000000 := by decide

theorem witness_CompareEqualSignAnswerUnscaledIntegers :
    (0x8000000000000000#64).toInt < (0x7FFFFFFFFFFFFFFF#64).toInt ∧
    (0x8000000000000000#64).getLsbD 63 = true ∧ (0x7FFFFFFFFFFFFFFF#64).getLsbD 63 = false ∧
    (0x7FFFFFFFFFFFFFFF#64 : Word) ≠ 0 := by decide

theorem witness_AbsSaturatesAndFastAbsWraps :
    (0x8000000000000000#64).toInt < 0 ∧ ¬ (0#64).toInt < 0 := by decide

/-- Fraction fields zero and not zero. -/
theorem witness_FloorCeilRoundAnswerIntegerValues :
    (0x8000000000000000#64).extractLsb' 0 32 = 0#32 ∧ (0x7FFFFFFFFFFFFFFF#64).extractLsb' 0 32 ≠ 0#32 := by decide

/-- Below, at the edge of, and in the saturating band. -/
theorem witness_RoundingBracketsTheOperand :
    (0x7FFFFFFEFFFFFFFF#64).extractLsb' 0 32 ≠ 0#32 ∧ (0x7FFFFFFEFFFFFFFF#64).toInt < 0x7FFFFFFF00000000 ∧
    (0x7FFFFFFF00000000#64).toInt ≤ 0x7FFFFFFF00000000 ∧
    (0x8000000000000001#64 : Word) ≠ 0x8000000000000000 ∧
    0x7FFFFFFF00000000 < (0x7FFFFFFF00000001#64).toInt ∧
    (0x8000000000000000#64).toInt ≤ (0x7FFFFFFFFFFFFFFF#64).toInt := by decide

theorem witness_DigitByDigitRootIsTheIntegerRoot :
    2 ^ 96 - 1 < 2 ^ 96 ∧ isqrt (2 ^ 96 - 1) = 2 ^ 48 - 1 := by decide +kernel

theorem witness_SqrtIsTheFloorOfTheRoot :
    (0xFFFFFFFFFFFFFFFF#64).toInt < 0 ∧ 0 ≤ (0#64).toInt ∧ 0 ≤ (0x7FFFFFFFFFFFFFFF#64).toInt := by decide

theorem witness_SqrtIsMonotone :
    0 ≤ (0#64).toInt ∧ (0#64).toInt ≤ (0x7FFFFFFFFFFFFFFF#64).toInt := by decide

/-- The operand zero is refused, one unit is not; both branches of the bit. -/
theorem witness_LogTwoDecomposesBitByBit :
    (0#64).toInt ≤ 0 ∧ 0 < (1#64).toInt ∧ 0 < (0x7FFFFFFFFFFFFFFF#64).toInt ∧
    2 ^ 63 ≤ (3 * 2 ^ 61) * (3 * 2 ^ 61) / 2 ^ 62 ∧ 2 ^ 62 * 2 ^ 62 / 2 ^ 62 < 2 ^ 63 := by decide

theorem witness_LogTwoIsExactOnPowersOfTwo :
    (2 ^ 0 ≤ (1#64).toInt ∧ (1#64).toInt < 2 ^ (0 + 1) ∧ (1#64).toInt = 2 ^ 0) ∧
    (2 ^ 62 ≤ (0x7FFFFFFFFFFFFFFF#64).toInt ∧ (0x7FFFFFFFFFFFFFFF#64).toInt < 2 ^ (62 + 1)) := by decide

theorem witness_LnIsLogTwoTimesLnTwo : (0#64).toInt ≤ 0 ∧ 0 < (1#64).toInt := by decide

/-- Integer parts 31 and 30, -32 and -33. -/
theorem witness_PowTwoSumsTheExponentialSeries :
    (0x0000001F00000000#64).toInt / 2 ^ 32 = 31 ∧ (0x0000001EFFFFFFFF#64).toInt / 2 ^ 32 = 30 ∧
    (0xFFFFFFE000000000#64).toInt / 2 ^ 32 = -32 ∧ (0xFFFFFFDFFFFFFFFF#64).toInt / 2 ^ 32 = -33 := by decide

theorem witness_PowTwoIsExactOnIntegers :
    (-32 : Int) ≤ -32 ∧ (-32 : Int) ≤ 30 ∧ (-32 : Int) ≤ 30 ∧ (30 : Int) ≤ 30 := by decide

/-- An operand pair for each row of the table. -/
theorem witness_PowTakesTheRowOfItsTable :
    ((0#64 : Word) = 0 ∧ (0xFFFFFFFFFFFFFFFF#64).toInt < 0) ∧ 0 < (1#64).toInt ∧
    ((0x8000000000000000#64).toInt < 0 ∧ (1#64 : Word) ≠ 0) ∧
    (0 < (0x7FFFFFFFFFFFFFFF#64).toInt ∧ (0xFFFFFFFFFFFFFFFF#64 : Word) ≠ 0) := by decide

theorem witness_SineTableHoldsTheSine : (0 : Nat) ≤ 131072 ∧ (131072 : Nat) ≤ 131072 := by decide

theorem witness_SinesLieBetweenMinusOneAndOne :
    Instr.fastcos 1 2 ∈ [Instr.sin 1 2, .cos 1 2, .fastsin 1 2, .fastcos 1 2] ∧
    ∃ t, exec (.fastcos 1 2) State.reset = .next t := ⟨by decide, _, rfl⟩

theorem witness_SineIsOddAndCosineIsEven :
    (0x8000000000000001#64 : Word) ≠ 0x8000000000000000 ∧ (0#64 : Word) ≠ 0x8000000000000000 := by decide

/-- A cosine that is the zero word and one that is not. -/
theorem witness_TanDividesSinByCos :
    responseTo 0x5100000001921FB5440000000000000000 = some (0, 0) ∧
    responseTo 0x5100000001921FB5430000000000000000 = some (0, 1) := by decide +kernel

/-- Both ends of the domain and their neighbours outside. -/
theorem witness_AcosIsTheAngleOfItsPoint :
    (0xFFFFFFFEFFFFFFFF#64).toInt < -2 ^ 32 ∧ 2 ^ 32 < (0x0000000100000001#64).toInt ∧
    -2 ^ 32 ≤ (0xFFFFFFFF00000000#64).toInt ∧ (0x0000000100000000#64).toInt ≤ 2 ^ 32 := by decide

theorem witness_ArctangentsKeepTheirRanges :
    (0x8000000000000001#64 : Word) ≠ 0x8000000000000000 ∧
    ∃ t, exec (.acos 0x100000000 0) State.reset = .next t := ⟨by decide, _, rfl⟩

theorem witness_ExactTrigonometricIdentities :
    (0xFFFFFFFFFFFFFFFF#64).toInt < 0 ∧ 0 ≤ (0#64).toInt ∧ 0 < (1#64).toInt := by decide

end Sys2Proof.Tests
end

section
/-! SUPPORT. EXECUTE as one rule: every command ends by `finish` with a result fixed by the command alone
(00_scope.md R4, 10_state.md R21). What `finish` does to the state is `finish_eq`. -/

namespace Sys2Proof.Machine

/-- Every command computes a result without reading the state and then ends by `finish` (R4). The
result is chosen before the state, so it cannot depend on it; the rule of each arm of `exec` gives it. -/
theorem exec_eq_finish (i : Instr) : ∃ r : Result, ∀ s : State, exec i s = finish r s := by
  cases i <;> exact ⟨_, fun _ => rfl⟩

/-- Settles O13: the response is the code and the word of the result that the command ends with, and
`finish` leaves every other field as it is. -/
theorem responseDependsOnlyOnTheCommand : Obligations.ResponseDependsOnlyOnTheCommand := by
  intro i
  obtain ⟨r, hexec⟩ := exec_eq_finish i
  refine ⟨r.err, r.res, fun s => ?_⟩
  rw [hexec s, finish_eq]

end Sys2Proof.Machine
end

section
/-! SUPPORT. The operand fields a command uses: changing an unused one, which is to read the command off the
opcode map again with another word there, leaves its execution the same (30_encoding.md R55, R57). -/

namespace Sys2Proof.Machine

/-- The opcode map at the three fields of a command is that command. -/
theorem decodeFields_of_instr (i : Instr) : decodeFields i.opcode i.opA i.opB = .instr i := by
  cases i <;> rfl

/-- The operation codes whose row of R55 gives the second operand a meaning. -/
def secondOperandCodes : List Nat := [0x20, 0x21, 0x22, 0x23, 0x24, 0x26, 0x27, 0x44, 0x57]

/-- A constant (R71 to R78) is executed alike whatever words stand in its operand fields. -/
theorem exec_constant_ignores_operands {i j : Instr} {a b : Word} (s : State)
    (hconst : 0x10 ≤ i.opcode.toNat ∧ i.opcode.toNat ≤ 0x17)
    (hj : decodeFields i.opcode a b = .instr j) : exec i s = exec j s := by
  cases i with
  | czero | cone | cmin | cmax | cpi | cpio2 | cpi2 | cprec =>
    obtain rfl := Decoded.instr.inj hj
    rfl
  | _ => simp [Instr.opcode] at hconst

/-- A command outside `secondOperandCodes` is executed alike whatever word stands in its second operand
field. -/
theorem exec_ignores_second_operand {i j : Instr} {b : Word} (s : State)
    (hunused : i.opcode.toNat ∉ secondOperandCodes)
    (hj : decodeFields i.opcode i.opA b = .instr j) : exec i s = exec j s := by
  cases i with
  | add | sub | mul | div | mod | cmp | eq | pow | atan2 =>
    simp [Instr.opcode, secondOperandCodes] at hunused
  | _ =>
    obtain rfl := Decoded.instr.inj hj
    rfl

/-- Settles O4, by the fields the code uses: none, the first alone, or both; in the last case the two commands
are the same. -/
theorem unusedOperandFieldsAreIgnored : Obligations.UnusedOperandFieldsAreIgnored := by
  intro i j s hcode hA hB
  have hj := decodeFields_of_instr j
  rw [← hcode] at hj
  by_cases hconst : 0x10 ≤ i.opcode.toNat ∧ i.opcode.toNat ≤ 0x17
  · exact exec_constant_ignores_operands s hconst hj
  · rw [← hA hconst] at hj
    by_cases hused : i.opcode.toNat ∈ secondOperandCodes
    · rw [← hB hused, decodeFields_of_instr] at hj
      rw [Decoded.instr.inj hj]
    · exact exec_ignores_second_operand s hused hj

end Sys2Proof.Machine
end

section
/-! SUPPORT. FROMRAW and the named constants: the 64-bit word of each constant, and the one rule by which a command
that ends with a fixed-point value answers its word (40_representation_constants.md R70 to R78). -/

namespace Sys2Proof.Machine

open Sys2Proof.Config

@[simp] theorem u64_ONE : u64 ONE = 0x0000000100000000 := by decide
@[simp] theorem u64_MINV : u64 MINV = 0x8000000000000000 := by decide
@[simp] theorem u64_MAXV : u64 MAXV = 0x7FFFFFFFFFFFFFFF := by decide
@[simp] theorem u64_PI : u64 PI = 0x00000003243F6A88 := by decide
@[simp] theorem u64_PI_OVER_2 : u64 PI_OVER_2 = 0x00000001921FB544 := by decide
@[simp] theorem u64_PI_TIMES_2 : u64 PI_TIMES_2 = 0x00000006487ED511 := by decide

/-- A command whose rule ends with the value `v` answers OK and the word of `v`, and leaves the rest of the
state as it is. -/
theorem exec_of_finish_value {i : Instr} {s : State} {v : Int} {w : Word}
    (harm : exec i s = finish (.value v) s) (hword : u64 v = w) :
    exec i s = .next { s with phase := .done, err_q := 0, res_q := w } := by
  rw [harm, finish_eq, err_value, res_value, hword]

/-- Settles O24: FROMRAW ends with its operand, each constant with its value, whose word is known. -/
theorem fromRawAndConstantsAnswerTheirWords : Obligations.FromRawAndConstantsAnswerTheirWords := by
  intro a b s
  have hraw : exec (.fromraw a b) s = finish (.word a) s := rfl
  refine ⟨?fromraw, ?czero, ?cone, ?cmin, ?cmax, ?cpi, ?cpio2, ?cpi2, ?cprec⟩
  case fromraw => rw [hraw, finish_eq, err_word, res_word]
  case czero => exact exec_of_finish_value (v := 0) rfl rfl
  case cone => exact exec_of_finish_value rfl u64_ONE
  case cmin => exact exec_of_finish_value rfl u64_MINV
  case cmax => exact exec_of_finish_value rfl u64_MAXV
  case cpi => exact exec_of_finish_value rfl u64_PI
  case cpio2 => exact exec_of_finish_value rfl u64_PI_OVER_2
  case cpi2 => exact exec_of_finish_value rfl u64_PI_TIMES_2
  case cprec => exact exec_of_finish_value (v := 1) rfl rfl

end Sys2Proof.Machine
end

section
/-! SUPPORT. Conversion: which bits of the operand the integer conversions keep, what the two binary64 conversions
compute from the fields of a pattern, and that rounding keeps a value between its bounds
(41_conversion.md R90 to R93, R6). -/

namespace Sys2Proof.Machine

open Sys2Proof.Config

/-! ### Integers (R90, R91) -/

/-- The wrapped shift of R90 in bits: the low half of the operand moves into the integer field. -/
theorem u64_shl_s64 (a : Word) : u64 (shl (s64 a) 32) = a.extractLsb' 0 32 ++ 0#32 := by
  have hleft : (u64 (shl (s64 a) 32)).toNat = a.toNat % 2 ^ 32 * 2 ^ 32 := by
    rw [u64, shl_eq_mul, BitVec.toNat_ofInt, s64, BitVec.toInt_eq_toNat_cond]
    split <;> omega
  have hright : (a.extractLsb' 0 32 ++ 0#32).toNat = a.toNat % 2 ^ 32 * 2 ^ 32 := by
    rw [BitVec.toNat_append, BitVec.toNat_ofNat, Nat.zero_mod, Nat.or_zero, Nat.shiftLeft_eq,
      BitVec.extractLsb'_toNat, Nat.shiftRight_zero]
  exact BitVec.eq_of_toNat_eq (hleft.trans hright.symm)

/-- The signed integer field of a word is the floor of its value (R91). -/
theorem toInt_integerField (a : Word) : (a.extractLsb' 32 32).toInt = a.toInt / 2 ^ 32 := by
  have ha := a.isLt
  rw [BitVec.toInt_eq_toNat_cond, BitVec.toInt_eq_toNat_cond, BitVec.extractLsb'_toNat,
    Nat.shiftRight_eq_div_pow]
  split <;> split <;> omega

/-- The floor of R91 in bits: the integer field with its sign copied. -/
theorem u64_asr_s64 (a : Word) : u64 (asr (s64 a) 32) = (a.extractLsb' 32 32).signExtend 64 := by
  rw [asr_eq_ediv, s64, ← toInt_integerField]
  rfl

/-- Settles O25: FROMINT ends with the operand shifted by 32, which is a wrap of the low half. -/
theorem fromIntKeepsTheLowBits : Obligations.FromIntKeepsTheLowBits :=
  fun a _ _ => exec_of_finish_value rfl (u64_shl_s64 a)

/-- Settles O26: TOINT ends with the floor of the value, which is the integer field sign-extended. -/
theorem toIntSignExtendsTheIntegerField : Obligations.ToIntSignExtendsTheIntegerField :=
  fun a _ _ => exec_of_finish_value rfl (u64_asr_s64 a)

/-! ### Rounding and bit length (R6) -/

/-- `rne` answers the nearest integer, the even one on a tie. -/
theorem nearestEven_rne (v : Int) {k : Nat} (hk : 1 ≤ k) : NearestEven (rne v k) v k :=
  rne_nearest v k hk

/-- Rounding does not cross an integer bound from below. -/
theorem NearestEven.le_of_le_mul {q v n : Int} {k : Nat} (h : NearestEven q v k)
    (hv : v ≤ n * 2 ^ k) : q ≤ n := by
  have hp : (0 : Int) < 2 ^ k := by positivity
  have hnear := le_abs_self (q * 2 ^ k - v)
  by_contra hlt
  have hstep : (n + 1) * 2 ^ k ≤ q * 2 ^ k :=
    mul_le_mul_of_nonneg_right (by omega) hp.le
  linarith [h.1]

/-- Rounding does not cross an integer bound from above. -/
theorem NearestEven.le_of_mul_le {q v n : Int} {k : Nat} (h : NearestEven q v k)
    (hv : n * 2 ^ k ≤ v) : n ≤ q := by
  have hp : (0 : Int) < 2 ^ k := by positivity
  have hnear := neg_le_abs (q * 2 ^ k - v)
  by_contra hlt
  have hstep : (q + 1) * 2 ^ k ≤ n * 2 ^ k :=
    mul_le_mul_of_nonneg_right (by omega) hp.le
  linarith [h.1]

theorem two_pow_msb_le {m : Nat} (hm : m ≠ 0) : 2 ^ msb m ≤ m := Nat.log2_self_le hm

theorem lt_two_pow_msb_succ (m : Nat) : m < 2 ^ (msb m + 1) := Nat.lt_log2_self

/-! ### From binary64 (R92) -/

/-- A NaN raises DOMAIN. -/
theorem f64ToRaw_nan {f : F64} (hE : f.E = 2047) (hM : f.M ≠ 0) : f64ToRaw f = .raise .domain :=
  if_pos ⟨hE, hM⟩

/-- An infinity clamps to the end of the raw range on its side. -/
theorem f64ToRaw_infinity {f : F64} (hE : f.E = 2047) (hM : f.M = 0) :
    f64ToRaw f = .value (if f.s then MINV else MAXV) := by
  simp [f64ToRaw, hE, hM]

/-- A zero or a subnormal is 0. -/
theorem f64ToRaw_of_exponent_zero {f : F64} (hE : f.E = 0) : f64ToRaw f = .value 0 := by
  simp [f64ToRaw, hE]

/-- A normal number is its rounded magnitude with its sign, clamped. -/
theorem f64ToRaw_normal {f : F64} (hlow : 1 ≤ f.E) (hhigh : f.E ≤ 2046) :
    f64ToRaw f = .value (sat (if f.s then -f64Magnitude f else f64Magnitude f)) := by
  have hzero : f.E ≠ 0 := by omega
  have htop : f.E ≠ 2047 := by omega
  simp [f64ToRaw, hzero, htop]

/-- From the exponent 1043 on the magnitude is an integer and exact. -/
theorem f64Magnitude_exact {f : F64} (hE : 1043 ≤ f.E) :
    f64Magnitude f = (2 ^ 52 + f.M) * 2 ^ (f.E - 1043) :=
  if_pos hE

/-- Below the exponent 1043 the magnitude is rounded, once. -/
theorem f64Magnitude_nearest {f : F64} (hE : f.E < 1043) :
    NearestEven (f64Magnitude f) (2 ^ 52 + f.M) (1043 - f.E) := by
  have hround : f64Magnitude f = rne (2 ^ 52 + f.M) (1043 - f.E) := if_neg (by omega)
  rw [hround]
  exact nearestEven_rne _ (by omega)

/-- Settles O28, by the rows of R92: what the rule answers for the fields of the operand. -/
theorem fromF64RoundsAndClamps : Obligations.FromF64RoundsAndClamps := by
  intro a b s
  have harm : exec (.fromf64 a b) s = finish (f64ToRaw (f64Operand a)) s := rfl
  refine ⟨fun hE hM => ?nan, fun hE hM => ?infinity, fun hE => ?zero, fun hlow hhigh => ?normal⟩
  case nan => rw [harm, f64ToRaw_nan hE hM, finish_eq, err_domain, res_raise]
  case infinity =>
    rw [f64ToRaw_infinity hE hM] at harm
    refine exec_of_finish_value harm ?_
    rw [apply_ite u64, u64_MINV, u64_MAXV]
    rfl
  case zero =>
    rw [f64ToRaw_of_exponent_zero hE] at harm
    exact exec_of_finish_value harm rfl
  case normal =>
    rw [f64ToRaw_normal hlow hhigh] at harm
    refine ⟨f64Magnitude (f64Operand a), _, exec_of_finish_value harm rfl, fun hE => f64Magnitude_exact hE,
      fun hE => f64Magnitude_nearest hE, ?_⟩
    rw [toInt_u64_sat, sat_eq_clamp]
    rfl

/-! ### To binary64 (R93) -/

/-- Reading the fields of a pattern that was put together from fields in range gives them back. -/
theorem f64Operand_f64Result {f : F64} (hE : f.E < 2 ^ 11) (hM : f.M < 2 ^ 52) :
    f64Operand (f64Result f) = f := by
  obtain ⟨sign, E, M⟩ := f
  dsimp only at hE hM
  have hs : (f64Result ⟨sign, E, M⟩).getLsbD 63 = sign := by
    rw [f64Result, BitVec.getLsbD_append, BitVec.getLsbD_append]
    simp
  have he : (f64Result ⟨sign, E, M⟩).extractLsb' 52 11 = BitVec.ofNat 11 E :=
    (BitVec.extractLsb'_append_eq_of_le (by omega)).trans BitVec.extractLsb'_append_eq_right
  have hm : (f64Result ⟨sign, E, M⟩).extractLsb' 0 52 = BitVec.ofNat 52 M :=
    BitVec.extractLsb'_append_eq_right
  simp only [f64Operand, hs, he, hm, BitVec.toNat_ofNat, Nat.mod_eq_of_lt hE, Nat.mod_eq_of_lt hM]

/-- The significand of a magnitude before renormalisation: at 53 bits, exact when it has no more than
those and else rounded. -/
def f64Significand (m : Nat) : Nat :=
  if msb m ≤ 52 then m * 2 ^ (52 - msb m) else (rne (m : Int) (msb m - 52)).toNat

theorem f64Significand_exact {m : Nat} (h : msb m ≤ 52) :
    f64Significand m = m * 2 ^ (52 - msb m) :=
  if_pos h

/-- Rounding a magnitude to 53 bits gives at least `2^52` and at most `2^53`, the carry. -/
theorem rne_significand_bounds {m : Nat} (hm : m ≠ 0) (h : 52 < msb m) :
    2 ^ 52 ≤ rne (m : Int) (msb m - 52) ∧ rne (m : Int) (msb m - 52) ≤ 2 ^ 53 := by
  have hround := nearestEven_rne (m : Int) (show 1 ≤ msb m - 52 by omega)
  have hlow : (2 : Int) ^ 52 * 2 ^ (msb m - 52) ≤ m := by
    rw [← pow_add, Nat.add_sub_cancel' h.le]
    exact_mod_cast two_pow_msb_le hm
  have hhigh : (m : Int) ≤ 2 ^ 53 * 2 ^ (msb m - 52) := by
    rw [← pow_add, show 53 + (msb m - 52) = msb m + 1 by omega]
    exact_mod_cast (lt_two_pow_msb_succ m).le
  exact ⟨hround.le_of_mul_le hlow, hround.le_of_le_mul hhigh⟩

theorem f64Significand_nearest {m : Nat} (hm : m ≠ 0) (h : 52 < msb m) :
    NearestEven (f64Significand m) m (msb m - 52) := by
  have hcast : (f64Significand m : Int) = rne m (msb m - 52) := by
    rw [f64Significand, if_neg (by omega), Int.toNat_of_nonneg]
    linarith [(rne_significand_bounds hm h).1]
  rw [hcast]
  exact nearestEven_rne _ (by omega)

theorem f64Significand_bounds {m : Nat} (hm : m ≠ 0) :
    2 ^ 52 ≤ f64Significand m ∧ f64Significand m ≤ 2 ^ 53 := by
  by_cases h : msb m ≤ 52
  · have hlow := Nat.mul_le_mul_right (2 ^ (52 - msb m)) (two_pow_msb_le hm)
    have hhigh := Nat.mul_le_mul_right (2 ^ (52 - msb m)) (lt_two_pow_msb_succ m).le
    rw [← pow_add] at hlow hhigh
    rw [show msb m + (52 - msb m) = 52 by omega] at hlow
    rw [show msb m + 1 + (52 - msb m) = 53 by omega] at hhigh
    rw [f64Significand_exact h]
    exact ⟨hlow, hhigh⟩
  · have hbounds := rne_significand_bounds hm (by omega)
    rw [f64Significand, if_neg h]
    omega

/-- A raw value other than zero in terms of its significand: when that carries out to `2^53` it is renormalised
and the exponent is one more. -/
theorem rawToF64_of_ne_zero {a : Int} (ha : a ≠ 0) :
    rawToF64 a =
      let q := f64Significand a.natAbs
      f64Result { s := decide (a < 0),
                  E := (if q == 2 ^ 53 then msb a.natAbs + 1 else msb a.natAbs) + 1023 - 32,
                  M := (if q == 2 ^ 53 then 2 ^ 52 else q) - 2 ^ 52 } :=
  if_neg ha

/-- Without a carry the exponent is that of the highest bit. -/
theorem rawToF64_of_no_carry {a : Int} (ha : a ≠ 0) (hq : f64Significand a.natAbs < 2 ^ 53) :
    rawToF64 a = f64Result { s := decide (a < 0), E := msb a.natAbs + 991,
                             M := f64Significand a.natAbs - 2 ^ 52 } := by
  have hcarry : (f64Significand a.natAbs == 2 ^ 53) = false := beq_false_of_ne hq.ne
  simp only [rawToF64_of_ne_zero ha, hcarry, Bool.false_eq_true, if_false, Nat.add_sub_assoc,
    Nat.reduceLeDiff, Nat.reduceSub]

/-- With a carry the exponent is the next one and the fraction zero. -/
theorem rawToF64_of_carry {a : Int} (ha : a ≠ 0) (hq : f64Significand a.natAbs = 2 ^ 53) :
    rawToF64 a = f64Result { s := decide (a < 0), E := msb a.natAbs + 992, M := 0 } := by
  simp [rawToF64_of_ne_zero ha, hq, Nat.add_assoc]

/-- The highest bit of a word's magnitude is at most bit 63. -/
theorem msb_natAbs_toInt_le (a : Word) : msb a.toInt.natAbs ≤ 63 := by
  by_cases hzero : a.toInt.natAbs = 0
  · rw [hzero]; decide
  · have hlow := s64_lower a
    have hhigh := s64_upper a
    unfold s64 at hlow hhigh
    have hmag : a.toInt.natAbs < 2 ^ 64 := by omega
    have := (Nat.log2_lt hzero).mpr hmag
    unfold msb
    omega

/-- Settles O29: the significand of the magnitude, and the fields of the pattern with and without the carry. -/
theorem toF64RoundsToNearestEven : Obligations.ToF64RoundsToNearestEven := by
  intro a b s
  refine ⟨rawToF64 a.toInt, rfl, ?zero, fun hne => ?nonzero⟩
  case zero => rintro rfl; rfl
  case nonzero =>
    have ha : a.toInt ≠ 0 := fun h => hne (BitVec.eq_of_toInt_eq h)
    have hm : a.toInt.natAbs ≠ 0 := Int.natAbs_ne_zero.mpr ha
    have hp := msb_natAbs_toInt_le a
    obtain ⟨hqlow, hqhigh⟩ := f64Significand_bounds hm
    refine ⟨msb a.toInt.natAbs, f64Significand a.toInt.natAbs, two_pow_msb_le hm,
      lt_two_pow_msb_succ _, f64Significand_exact, f64Significand_nearest hm, ?_⟩
    rcases hqhigh.lt_or_eq with hlt | hcarry
    · have hf := (congrArg f64Operand (rawToF64_of_no_carry ha hlt)).trans
        (f64Operand_f64Result (by dsimp only; omega) (by dsimp only; omega))
      exact ⟨congrArg F64.s hf, fun _ => ⟨congrArg F64.E hf, congrArg F64.M hf⟩, fun _ => by omega⟩
    · have hf := (congrArg f64Operand (rawToF64_of_carry ha hcarry)).trans
        (f64Operand_f64Result (by dsimp only; omega) (by dsimp only; omega))
      exact ⟨congrArg F64.s hf, fun _ => by omega, fun _ => ⟨congrArg F64.E hf, congrArg F64.M hf⟩⟩

end Sys2Proof.Machine
end

section
/-! SUPPORT. The arithmetic core and the comparisons: a command whose rule saturates answers a word with the
clamped value, the divider's and the remainder's two cases, and the three outcomes of a comparison
(42_arithmetic.md R110 to R117, 43_rounding_sign.md R140). -/

namespace Sys2Proof.Machine

/-! ### How a command ends -/

/-- A command whose rule ends with a saturated value answers OK and a word whose signed value is the clamped
one. -/
theorem exec_of_finish_sat {i : Instr} {s : State} {v : Int} (harm : exec i s = finish (.value (sat v)) s) :
    ∃ r : Word, exec i s = .next { s with phase := .done, err_q := 0, res_q := r } ∧
      r.toInt = clampRaw v :=
  ⟨u64 (sat v), exec_of_finish_value harm rfl, (toInt_u64_sat v).trans (sat_eq_clamp v)⟩

/-- A command whose rule raises DIV_BY_ZERO answers its code and the zero word (R243). -/
theorem exec_of_finish_divByZero {i : Instr} {s : State} (harm : exec i s = finish (.raise .divByZero) s) :
    exec i s = .next { s with phase := .done, err_q := 1, res_q := 0 } := by
  rw [harm, finish_eq, err_divByZero, res_raise]

/-! ### Sum, difference, negation and product (R110, R111, R112, R115) -/

/-- Settles O31: each of the three commands ends with its exact result, saturated. -/
theorem addSubNegSaturateTheExactResult : Obligations.AddSubNegSaturateTheExactResult := by
  intro a b s
  obtain ⟨sum, hadd, hsum⟩ := exec_of_finish_sat (i := .add a b) (s := s) (v := a.toInt + b.toInt) rfl
  obtain ⟨diff, hsub, hdiff⟩ := exec_of_finish_sat (i := .sub a b) (s := s) (v := a.toInt - b.toInt) rfl
  obtain ⟨neg, hneg, hvalue⟩ := exec_of_finish_sat (i := .neg a b) (s := s) (v := -a.toInt) rfl
  exact ⟨sum, diff, neg, hadd, hsub, hneg, hsum, hdiff, hvalue⟩

/-- Settles O32: the multiplier rounds the exact product once, to the nearest integer, and then saturates. -/
theorem mulRoundsToNearestEvenThenSaturates : Obligations.MulRoundsToNearestEvenThenSaturates := by
  intro a b s
  obtain ⟨r, hexec, hvalue⟩ :=
    exec_of_finish_sat (i := .mul a b) (s := s) (v := rne (a.toInt * b.toInt) 32) rfl
  exact ⟨rne (a.toInt * b.toInt) 32, r, hexec, nearestEven_rne _ (by omega), hvalue⟩

/-! ### Quotient and remainder (R113, R114) -/

/-- A word other than the zero word has a value other than zero. -/
theorem toInt_ne_zero {w : Word} (hw : w ≠ 0) : w.toInt ≠ 0 :=
  BitVec.toInt_ne.mpr hw

/-- Settles O33, by the two cases of the divider. -/
theorem divTruncatesTowardZeroThenSaturates : Obligations.DivTruncatesTowardZeroThenSaturates := by
  intro a b s
  have harm : exec (.div a b) s = finish (divRaw a.toInt b.toInt) s := rfl
  refine ⟨fun hzero => ?zero, fun hb => ?nonzero⟩
  case zero =>
    subst hzero
    exact exec_of_finish_divByZero harm
  case nonzero =>
    obtain ⟨-, hquot⟩ :=
      (divRaw_cases a.toInt b.toInt).resolve_left fun ⟨hzero, _⟩ => toInt_ne_zero hb hzero
    rw [hquot] at harm
    exact exec_of_finish_sat harm

/-- The remainder by a nonzero divisor is the library's truncating remainder. -/
theorem modRaw_of_ne_zero {a b : Int} (hb : b ≠ 0) : modRaw a b = .value (a.tmod b) := by
  rw [modRaw, if_neg hb, trem_eq]

/-- The truncating remainder is smaller in magnitude than its divisor. -/
theorem abs_tmod_lt {a b : Int} (hb : b ≠ 0) : |a.tmod b| < |b| := by
  rw [Int.abs_eq_natAbs, Int.abs_eq_natAbs, Int.natAbs_tmod]
  exact_mod_cast Nat.mod_lt _ (Int.natAbs_pos.mpr hb)

/-- The truncating remainder has the sign of the dividend or is zero. -/
theorem tmod_mul_dividend_nonneg (a b : Int) : 0 ≤ a.tmod b * a := by
  rcases le_total 0 a with ha | ha
  · exact mul_nonneg (Int.tmod_nonneg b ha) ha
  · have hneg := Int.tmod_nonneg b (neg_nonneg.mpr ha)
    rw [Int.neg_tmod, neg_nonneg] at hneg
    exact mul_nonneg_of_nonpos_of_nonpos hneg ha

/-- The remainder by the value of a word fits a word, so MOD never saturates. -/
theorem toInt_u64_tmod (a : Int) {b : Word} (hb : b ≠ 0) :
    (u64 (a.tmod b.toInt)).toInt = a.tmod b.toInt := by
  have hmag : |b.toInt| ≤ 2 ^ 63 := abs_le.mpr ⟨s64_lower b, (s64_upper b).trans (by decide)⟩
  obtain ⟨hlow, hhigh⟩ := abs_lt.mp ((abs_tmod_lt (a := a) (toInt_ne_zero hb)).trans_le hmag)
  exact toInt_u64 _ hlow.le (Int.le_sub_one_of_lt hhigh)

/-- Settles O34: the remainder fits a word, so the value answered is the truncating remainder itself. -/
theorem modIsTheExactTruncatingRemainder : Obligations.ModIsTheExactTruncatingRemainder := by
  intro a b s
  have harm : exec (.mod a b) s = finish (modRaw a.toInt b.toInt) s := rfl
  refine ⟨fun hzero => ?zero, fun hb => ?nonzero⟩
  case zero =>
    subst hzero
    exact exec_of_finish_divByZero harm
  case nonzero =>
    have hbv := toInt_ne_zero hb
    rw [modRaw_of_ne_zero hbv] at harm
    refine ⟨u64 (a.toInt.tmod b.toInt), exec_of_finish_value harm rfl, ?_⟩
    rw [toInt_u64_tmod _ hb]
    exact ⟨by rw [Int.tmod_def, mul_comm], abs_tmod_lt hbv, tmod_mul_dividend_nonneg _ _⟩

/-! ### Comparison, equality and sign (R116, R117, R140) -/

theorem threeWay_of_lt {x y : Int} (h : x < y) : threeWay x y = -1 := if_pos h

theorem threeWay_self (x : Int) : threeWay x x = 0 := by
  rw [threeWay, if_neg (lt_irrefl x), if_pos rfl]

theorem threeWay_of_gt {x y : Int} (h : y < x) : threeWay x y = 1 := by
  rw [threeWay, if_neg h.not_gt, if_neg h.ne']

/-- Bit 63 of a word is the sign of its value (R2). -/
theorem getLsbD_63_eq_decide_neg (w : Word) : w.getLsbD 63 = decide (w.toInt < 0) := by
  rw [← BitVec.msb_eq_toInt, BitVec.msb_eq_getLsbD_last]

/-- Settles O35: the outcome of a comparison for each order of its two values; SIGN compares with zero, and
bit 63 says on which side of it the value lies. -/
theorem compareEqualSignAnswerUnscaledIntegers : Obligations.CompareEqualSignAnswerUnscaledIntegers := by
  intro a b s
  refine ⟨u64 (threeWay a.toInt b.toInt), u64 (equalOutcome a b), u64 (threeWay a.toInt 0), rfl, rfl, rfl,
    ?less, ?same, ?greater, ?equal, ?different, ?negative, ?zero, ?positive⟩
  case less => intro h; rw [threeWay_of_lt h]; rfl
  case same => rintro rfl; rw [threeWay_self]; rfl
  case greater => intro h; rw [threeWay_of_gt h]; rfl
  case equal => intro h; rw [equalOutcome, if_pos h]; rfl
  case different => intro h; rw [equalOutcome, if_neg h]; rfl
  case negative =>
    intro hsign
    rw [getLsbD_63_eq_decide_neg, decide_eq_true_iff] at hsign
    rw [threeWay_of_lt hsign]
    rfl
  case zero => rintro rfl; rfl
  case positive =>
    intro hsign ha
    rw [getLsbD_63_eq_decide_neg, decide_eq_false_iff_not, not_lt] at hsign
    rw [threeWay_of_gt (hsign.lt_of_ne' (toInt_ne_zero ha))]
    rfl

end Sys2Proof.Machine
end

section
/-! SUPPORT. The absolute values and the roundings to an integer value: the mask of FASTABS, and what clearing the
fraction field, going up and rounding do to a value, with the range in which they need no saturation
(43_rounding_sign.md R141 to R145). -/

namespace Sys2Proof.Machine

open Sys2Proof.Config

/-! ### Absolute values (R141, R142) -/

/-- A value in the raw range is not clamped. -/
theorem clampRaw_eq_self {v : Int} (hlow : -2 ^ 63 ≤ v) (hhigh : v ≤ 2 ^ 63 - 1) : clampRaw v = v := by
  rw [clampRaw, min_eq_right hhigh, max_eq_right hlow]

/-- Every word but the smallest has a value above `-2^63`. -/
theorem lt_toInt_of_ne_min {a : Word} (ha : a ≠ 0x8000000000000000) : -2 ^ 63 < a.toInt :=
  (s64_lower a).lt_of_ne fun h => ha (BitVec.eq_of_toInt_eq h.symm)

/-- The mask of R142: sixty-four copies of the sign. -/
theorem sshiftRight_63_eq (a : Word) :
    a.sshiftRight 63 = if a.toInt < 0 then BitVec.allOnes 64 else 0 := by
  have hlow : -2 ^ 63 ≤ a.toInt := s64_lower a
  have hhigh : a.toInt ≤ 2 ^ 63 - 1 := s64_upper a
  apply BitVec.eq_of_toInt_eq
  rw [BitVec.toInt_sshiftRight, Int.shiftRight_eq_div_pow]
  split
  · rw [BitVec.toInt_allOnes, if_pos (by omega)]
    omega
  · rw [show (0 : Word).toInt = 0 from rfl]
    omega

/-- Mask, wrapping add and exclusive-or negate a negative operand and keep any other. -/
theorem fastabs_word_eq (a : Word) :
    (a + a.sshiftRight 63) ^^^ a.sshiftRight 63 = if a.toInt < 0 then -a else a := by
  rw [sshiftRight_63_eq]
  split
  · rw [BitVec.xor_allOnes, ← BitVec.neg_one_eq_allOnes, ← BitVec.sub_eq_add_neg,
      BitVec.not_sub_one_eq_not_add_one, BitVec.neg_eq_not_add]
  · rw [BitVec.ofNat_eq_ofNat, BitVec.xor_zero, BitVec.add_zero]

/-- Outside the smallest word the wrapped negation has the absolute value, which is in the raw range. -/
theorem toInt_fastabs_of_ne_min {a : Word} (ha : a ≠ 0x8000000000000000) :
    (if a.toInt < 0 then -a else a).toInt = clampRaw |a.toInt| := by
  have hlow := lt_toInt_of_ne_min ha
  have hhigh : a.toInt ≤ 2 ^ 63 - 1 := s64_upper a
  have habs : |a.toInt| ≤ 2 ^ 63 - 1 := abs_le.mpr ⟨by omega, hhigh⟩
  rw [clampRaw_eq_self (by linarith [abs_nonneg a.toInt]) habs]
  split
  case isTrue hneg => rw [BitVec.toInt_neg_of_ne_intMin ha, abs_of_neg hneg]
  case isFalse hneg => rw [abs_of_nonneg (not_lt.mp hneg)]

/-- Settles O37: outside the smallest word the two results have the same value; on it ABS is clamped to
`2^63 - 1` and FASTABS wraps round to the operand. -/
theorem absSaturatesAndFastAbsWraps : Obligations.AbsSaturatesAndFastAbsWraps := by
  intro a b s
  obtain ⟨r, habs, hvalue⟩ := exec_of_finish_sat (i := .abs a b) (s := s) (v := (a.toInt.natAbs : Int)) rfl
  have hfast : exec (.fastabs a b) s = finish (.word ((a + a.sshiftRight 63) ^^^ a.sshiftRight 63)) s := rfl
  rw [fastabs_word_eq, finish_eq, err_word, res_word] at hfast
  rw [← Int.abs_eq_natAbs] at hvalue
  refine ⟨r, _, habs, hfast, hvalue, rfl, ⟨?differ, fun ha => ?agree⟩, ?smallest⟩
  case differ =>
    rintro hsame rfl
    rw [hsame] at hvalue
    exact absurd hvalue (by decide)
  case agree => exact BitVec.eq_of_toInt_eq (hvalue.trans (toInt_fastabs_of_ne_min ha).symm)
  case smallest => rintro rfl; rfl

/-! ### The integer field and the fraction field -/

/-- The fraction field is what the value has above its floor. -/
theorem fracField_eq_emod (a : Word) : (fracField a : Int) = a.toInt % 2 ^ 32 := by
  rw [fracField, BitVec.extractLsb'_toNat, Nat.shiftRight_zero, BitVec.toInt_eq_toNat_cond]
  split <;> omega

theorem floorRaw_eq (v : Int) : floorRaw v = v / 2 ^ 32 * 2 ^ 32 := by
  rw [floorRaw, shl_eq_mul, asr_eq_ediv]

/-- The integer field of a floor is the integer field of the value. -/
theorem asr_floorRaw (v : Int) : asr (floorRaw v) 32 = v / 2 ^ 32 := by
  rw [asr_eq_ediv, floorRaw_eq, Int.mul_ediv_cancel _ (by decide)]

theorem floorRaw_add_ONE (v : Int) : floorRaw v + ONE = (v / 2 ^ 32 + 1) * 2 ^ 32 := by
  rw [floorRaw_eq, add_mul, one_mul]
  rfl

/-- Clearing the fraction field does not leave the raw range, so the floor of a word is never clamped. -/
theorem sat_floorRaw (a : Word) : sat (floorRaw a.toInt) = floorRaw a.toInt := by
  have hlow : -2 ^ 63 ≤ a.toInt := s64_lower a
  have hhigh : a.toInt ≤ 2 ^ 63 - 1 := s64_upper a
  rw [sat_eq_clamp]
  exact clampRaw_eq_self (by rw [floorRaw_eq]; omega) (by rw [floorRaw_eq]; omega)

/-! ### FLOOR, CEIL and ROUND (R143, R144, R145) -/

/-- The floor in bits: FROMINT after TOINT, which keeps the integer field over a cleared fraction field. -/
theorem u64_floorRaw (a : Word) : u64 (floorRaw a.toInt) = a.extractLsb' 32 32 ++ 0#32 := by
  have hint : asr a.toInt 32 = s64 ((a.extractLsb' 32 32).signExtend 64) := by
    rw [asr_eq_ediv, s64, BitVec.toInt_signExtend_of_le (by omega), toInt_integerField]
  have hlow : ((a.extractLsb' 32 32).signExtend 64).extractLsb' 0 32 = a.extractLsb' 32 32 := by
    ext i hi
    rw [BitVec.getElem_extractLsb', zero_add, BitVec.getLsbD_eq_getElem (by omega),
      BitVec.getElem_signExtend, dif_pos hi]
  rw [floorRaw, hint, u64_shl_s64, hlow]

/-- CEIL of an integer value is that value. -/
theorem exec_ceil_of_fraction_zero {a b : Word} {s : State} (hfrac : a.extractLsb' 0 32 = 0#32) :
    exec (.ceil a b) s = .next { s with phase := .done, err_q := 0, res_q := a } := by
  have hzero : fracField a = 0 := by rw [fracField, hfrac]; rfl
  refine exec_of_finish_value (v := s64 a) ?_ (u64_s64 a)
  change execCeil a s = _
  rw [execCeil, if_pos hzero, fixOperand]

/-- CEIL of any other value ends with the next integer value, saturated. -/
theorem exec_ceil_of_fraction_ne_zero {a b : Word} {s : State} (hfrac : a.extractLsb' 0 32 ≠ 0#32) :
    exec (.ceil a b) s = finish (.value (sat ((a.toInt / 2 ^ 32 + 1) * 2 ^ 32))) s := by
  have hne : fracField a ≠ 0 := fun h => hfrac (BitVec.eq_of_toNat_eq h)
  change execCeil a s = _
  rw [execCeil, if_neg hne, floorRaw_add_ONE, fixOperand, s64]

/-- A value rounds down below the half and, from an even integer part, on the half. -/
theorem sat_rne_of_down {a : Word}
    (hdown : fracField a < 2 ^ 31 ∨ fracField a = 2 ^ 31 ∧ a.toInt / 2 ^ 32 % 2 = 0) :
    sat (rne a.toInt 32 * 2 ^ 32) = floorRaw a.toInt := by
  have hfrac := fracField_eq_emod a
  have hrne : rne a.toInt 32 = a.toInt / 2 ^ 32 := by
    rw [rne, asr_eq_ediv, if_neg (by omega)]
  rw [hrne, ← floorRaw_eq, sat_floorRaw]

/-- A value rounds up above the half and, from an odd integer part, on the half. -/
theorem rne_of_up {a : Word}
    (hup : 2 ^ 31 < fracField a ∨ fracField a = 2 ^ 31 ∧ a.toInt / 2 ^ 32 % 2 ≠ 0) :
    rne a.toInt 32 * 2 ^ 32 = floorRaw a.toInt + ONE := by
  have hfrac := fracField_eq_emod a
  have hrne : rne a.toInt 32 = a.toInt / 2 ^ 32 + 1 := by
    rw [rne, asr_eq_ediv, if_pos (by omega)]
  rw [hrne, floorRaw_add_ONE]

/-- The tests of ROUND on the fraction field and on the lowest integer bit round the value to the nearest integer
(R6), and neither arm that goes down needs the saturation. -/
theorem exec_round_eq (a b : Word) (s : State) :
    exec (.round a b) s = finish (.value (sat (rne a.toInt 32 * 2 ^ 32))) s := by
  change execRound a s = _
  rw [execRound, fixOperand, s64, asr_floorRaw]
  split_ifs with hbelow habove heven
  · rw [sat_rne_of_down (.inl hbelow)]
  · rw [rne_of_up (.inl habove)]
  · rw [sat_rne_of_down (.inr ⟨by omega, heven⟩)]
  · rw [rne_of_up (.inr ⟨by omega, heven⟩)]

/-- Settles O38: FLOOR by the bits of the floor, CEIL by its two cases, ROUND with the rounded value. -/
theorem floorCeilRoundAnswerIntegerValues : Obligations.FloorCeilRoundAnswerIntegerValues := by
  intro a b s
  have hfloor := exec_of_finish_value (i := .floor a b) (s := s) rfl (u64_floorRaw a)
  obtain ⟨r, hround, hnear⟩ := exec_of_finish_sat (exec_round_eq a b s)
  have hk := nearestEven_rne a.toInt (k := 32) (by omega)
  by_cases hfrac : a.extractLsb' 0 32 = 0#32
  · exact ⟨a, r, _, hfloor, exec_ceil_of_fraction_zero hfrac, hround, fun _ => rfl,
      fun hne => absurd hfrac hne, hk, hnear⟩
  · obtain ⟨c, hceil, hnext⟩ := exec_of_finish_sat (exec_ceil_of_fraction_ne_zero (b := b) (s := s) hfrac)
    exact ⟨c, r, _, hfloor, hceil, hround, fun heq => absurd heq hfrac, fun _ => hnext, hk, hnear⟩

end Sys2Proof.Machine
end

section
/-! SUPPORT. The square root: what the 48 digits leave behind, and SQRT as the integer root of the radicand at
doubled precision (44_sqrt_log_pow.md R160, R161; R8). -/

namespace Sys2Proof.Machine

/-! ### DOMAIN, and operands that are not negative -/

/-- A command whose rule raises DOMAIN answers its code and the zero word (R243). -/
theorem exec_of_finish_domain {i : Instr} {s : State} (harm : exec i s = finish (.raise .domain) s) :
    exec i s = .next { s with phase := .done, err_q := 2, res_q := 0 } := by
  rw [harm, finish_eq, err_domain, res_raise]

/-- The signed value of a word that is not negative is its unsigned value. -/
theorem toNat_toInt_of_nonneg {a : Word} (ha : 0 ≤ a.toInt) : a.toInt.toNat = a.toNat := by
  rw [BitVec.toInt_eq_toNat_of_msb (by rw [BitVec.msb_eq_toInt, decide_eq_false ha.not_gt]), Int.toNat_natCast]

/-! ### The digits (R161) -/

/-- The digits that are left complete the root: root and remainder account for the whole radicand, and the
remainder stays below the next trial. -/
theorem sqrtLoop_invariant (r n : Nat) (st : Nat × Nat)
    (hsum : st.1 * st.1 + st.2 = r / 2 ^ (2 * n)) (hrem : st.2 ≤ 2 * st.1) :
    (sqrtLoop r n st).1 * (sqrtLoop r n st).1 + (sqrtLoop r n st).2 = r ∧
      (sqrtLoop r n st).2 ≤ 2 * (sqrtLoop r n st).1 := by
  induction n generalizing st with
  | zero => exact ⟨hsum.trans (Nat.div_one r), hrem⟩
  | succ n ih =>
    obtain ⟨hsum', hrem'⟩ := sqrtStep_invariant r n st hsum hrem
    exact ih _ hsum' hrem'

/-- The 48 digits are the integer root of a radicand of 48 pairs of bits (R8). -/
theorem isqrt_spec {r : Nat} (hr : r < 2 ^ 96) :
    isqrt r * isqrt r ≤ r ∧ r < (isqrt r + 1) * (isqrt r + 1) := by
  have hstart : 0 * 0 + 0 = r / 2 ^ (2 * Config.SQRT_PAIRS) := (Nat.div_eq_of_lt hr).symm
  obtain ⟨hsum, hrem⟩ := sqrtLoop_invariant r Config.SQRT_PAIRS (0, 0) hstart le_rfl
  have hsquare : (isqrt r + 1) * (isqrt r + 1) = isqrt r * isqrt r + (2 * isqrt r + 1) := by ring
  rw [hsquare]
  unfold isqrt
  omega

/-- The root of a radicand of 48 pairs has 48 bits. -/
theorem isqrt_lt {r : Nat} (hr : r < 2 ^ 96) : isqrt r < 2 ^ 48 :=
  Nat.mul_self_lt_mul_self_iff.mp ((isqrt_spec hr).1.trans_lt hr)

/-! ### SQRT (R160) -/

theorem exec_sqrt_of_neg {a : Word} (b : Word) (s : State) (ha : a.toInt < 0) :
    exec (.sqrt a b) s = finish (.raise .domain) s := by
  change execSqrt a s = _
  rw [execSqrt, fixOperand, s64, if_pos ha]

/-- The radicand of an operand that is not negative is its unsigned value at doubled precision. -/
theorem exec_sqrt_of_nonneg {a : Word} (b : Word) (s : State) (ha : 0 ≤ a.toInt) :
    exec (.sqrt a b) s = finish (.value (isqrt (a.toNat * 2 ^ 32) : Int)) s := by
  have hradicand : (shl a.toInt 32).toNat = a.toNat * 2 ^ 32 := by
    rw [shl_eq_mul, Int.toNat_mul ha (by decide), toNat_toInt_of_nonneg ha]
    rfl
  change execSqrt a s = _
  rw [execSqrt, fixOperand, s64, if_neg ha.not_gt, hradicand]

/-- Settles O41: the radicand has 48 pairs of bits, so the digits are its integer root, which fits a word. -/
theorem sqrtIsTheFloorOfTheRoot : Obligations.SqrtIsTheFloorOfTheRoot := by
  intro a b s
  refine ⟨fun hneg => exec_of_finish_domain (exec_sqrt_of_neg b s hneg), fun ha => ?_⟩
  have hradicand : a.toNat * 2 ^ 32 < 2 ^ 96 := by
    have := a.isLt
    omega
  obtain ⟨hlow, hhigh⟩ := isqrt_spec hradicand
  have hlt := isqrt_lt hradicand
  refine ⟨_, exec_of_finish_value (exec_sqrt_of_nonneg b s ha) rfl, ?_⟩
  rw [toNat_u64 _ (by omega), ← Int.toNat_of_nonneg ha, toNat_toInt_of_nonneg ha]
  exact ⟨hlt, by exact_mod_cast hlow, by exact_mod_cast hhigh⟩

end Sys2Proof.Machine
end

section
/-! SUPPORT. The binary logarithm and LN over it: one bit of the fraction, the bits as a sum, and the cell of the
highest bit, in which the logarithm fits a word (44_sqrt_log_pow.md R163, R165). -/

namespace Sys2Proof.Machine

open Sys2Proof.Config

/-! ### The bits of the fraction (R163) -/

/-- The bit that squaring the mantissa carries out. -/
def log2Bit (z : Nat) : Nat := if 2 ^ 63 ≤ z * z / 2 ^ 62 then 1 else 0

/-- The mantissa after squaring, halved when the square carries. -/
def log2Mantissa (z : Nat) : Nat :=
  if 2 ^ 63 ≤ z * z / 2 ^ 62 then z * z / 2 ^ 62 / 2 else z * z / 2 ^ 62

theorem log2_carry {z : Nat} (h : 2 ^ 63 ≤ z * z / 2 ^ 62) :
    log2Bit z = 1 ∧ log2Mantissa z = z * z / 2 ^ 62 / 2 :=
  ⟨if_pos h, if_pos h⟩

theorem log2_no_carry {z : Nat} (h : z * z / 2 ^ 62 < 2 ^ 63) :
    log2Bit z = 0 ∧ log2Mantissa z = z * z / 2 ^ 62 :=
  ⟨if_neg h.not_ge, if_neg h.not_ge⟩

/-- One iteration of the loop adds the weighted bit and goes on with the next mantissa. -/
theorem log2Loop_succ (n z : Nat) (y : Int) :
    log2Loop (n + 1) z y = log2Loop n (log2Mantissa z) (y + log2Bit z * 2 ^ n) := by
  rcases le_or_gt (2 ^ 63) (z * z / 2 ^ 62) with h | h
  · obtain ⟨hbit, hmantissa⟩ := log2_carry h
    rw [log2Loop, if_pos h, hbit, hmantissa, Nat.cast_one, one_mul]
  · obtain ⟨hbit, hmantissa⟩ := log2_no_carry h
    rw [log2Loop, if_neg h.not_ge, hbit, hmantissa, Nat.cast_zero, zero_mul, add_zero]

/-- The loop adds up the bits of the successive mantissas, the first with the highest weight. -/
theorem log2Loop_eq_sum (n z : Nat) (y : Int) :
    log2Loop n z y =
      y + ∑ i ∈ Finset.range n, (log2Bit (log2Mantissa^[i] z) : Int) * 2 ^ (n - 1 - i) := by
  induction n generalizing z y with
  | zero => simp [log2Loop]
  | succ n ih =>
    have hweight (i : Nat) : n + 1 - 1 - (i + 1) = n - 1 - i := by omega
    rw [log2Loop_succ, ih, Finset.sum_range_succ']
    simp only [Function.iterate_succ_apply, Function.iterate_zero_apply, hweight]
    rw [Nat.sub_zero, Nat.add_sub_cancel, add_right_comm, add_assoc]

/-- The `n` bits that are left add less than `2 ^ n`. -/
theorem log2Loop_bounds (n z : Nat) (y : Int) : y ≤ log2Loop n z y ∧ log2Loop n z y < y + 2 ^ n := by
  induction n generalizing z y with
  | zero => simp [log2Loop]
  | succ n ih =>
    obtain ⟨hlow, hhigh⟩ := ih (log2Mantissa z) (y + log2Bit z * 2 ^ n)
    have hbit : log2Bit z ≤ 1 := by
      unfold log2Bit
      split <;> omega
    have hpart : (log2Bit z : Int) * 2 ^ n ≤ 1 * 2 ^ n :=
      mul_le_mul_of_nonneg_right (by exact_mod_cast hbit) (by positivity)
    have hpart_nonneg : 0 ≤ (log2Bit z : Int) * 2 ^ n := by positivity
    rw [log2Loop_succ, pow_succ]
    constructor <;> linarith

/-! ### The logarithm as a raw value -/

/-- The logarithm lies in the cell of the highest bit of its operand. -/
theorem log2Raw_bounds (m : Nat) :
    ((msb m : Int) - 32) * 2 ^ 32 ≤ log2Raw m ∧ log2Raw m < ((msb m : Int) - 31) * 2 ^ 32 := by
  obtain ⟨hlow, hhigh⟩ :=
    log2Loop_bounds LOG2_ITERS (m * 2 ^ (62 - msb m)) (((msb m : Int) - 32) * 2 ^ 32)
  refine ⟨hlow, hhigh.trans_eq ?_⟩
  rw [LOG2_ITERS]
  ring

/-- The logarithm of an operand word fits a word, so the commands over LOG2 read back the value it answers. -/
theorem toInt_u64_log2Raw {a : Word} (ha : 0 ≤ a.toInt) :
    (u64 (log2Raw a.toNat)).toInt = log2Raw a.toNat := by
  have hmsb := msb_natAbs_toInt_le a
  rw [← Int.toNat_of_nonneg ha, Int.natAbs_natCast, toNat_toInt_of_nonneg ha] at hmsb
  obtain ⟨hlow, hhigh⟩ := log2Raw_bounds a.toNat
  exact toInt_u64 _ (by omega) (by omega)

/-! ### LOG2 (R163) -/

theorem exec_log2_of_nonpos {a : Word} (b : Word) (s : State) (ha : a.toInt ≤ 0) :
    exec (.log2 a b) s = finish (.raise .domain) s := by
  change execLog2 a s = _
  rw [execLog2, fixOperand, s64, if_pos ha]

theorem exec_log2_of_pos {a : Word} (b : Word) (s : State) (ha : 0 < a.toInt) :
    exec (.log2 a b) s = finish (.value (log2Raw a.toNat)) s := by
  change execLog2 a s = _
  rw [execLog2, fixOperand, s64, if_neg ha.not_ge, toNat_toInt_of_nonneg ha.le]

/-- Settles O43: the mantissas are the iterates of one squaring, and the loop adds up the bits they carry out. -/
theorem logTwoDecomposesBitByBit : Obligations.LogTwoDecomposesBitByBit := by
  intro a b s
  refine ⟨fun hnonpos => exec_of_finish_domain (exec_log2_of_nonpos b s hnonpos), fun ha => ?_⟩
  have hne : a.toNat ≠ 0 := by
    rw [← toNat_toInt_of_nonneg ha.le]
    omega
  refine ⟨_, msb a.toNat, fun i => log2Mantissa^[i] (a.toNat * 2 ^ (62 - msb a.toNat)),
    fun i => log2Bit (log2Mantissa^[i] (a.toNat * 2 ^ (62 - msb a.toNat))),
    exec_of_finish_value (exec_log2_of_pos b s ha) rfl, two_pow_msb_le hne, lt_two_pow_msb_succ _, rfl,
    fun i _ => ?bits, ?value⟩
  case bits =>
    simp only [Function.iterate_succ_apply']
    exact ⟨log2_carry, log2_no_carry⟩
  case value =>
    rw [toInt_u64_log2Raw ha.le]
    exact log2Loop_eq_sum _ _ _

/-! ### MUL as a unit, and LN over it (R112, R165) -/

/-- MUL ends with the product of the multiplier on the two values (R112). -/
theorem exec_mul_eq (a b : Word) (s : State) :
    exec (.mul a b) s = finish (.value (mulRaw a.toInt b.toInt)) s := rfl

/-- The product of the multiplier is saturated, so it survives its word. -/
theorem toInt_u64_mulRaw (a b : Int) : (u64 (mulRaw a b)).toInt = mulRaw a b := toInt_u64_sat _

theorem exec_ln_of_nonpos {a : Word} (b : Word) (s : State) (ha : a.toInt ≤ 0) :
    exec (.ln a b) s = finish (.raise .domain) s := by
  change execLn a s = _
  rw [execLn, fixOperand, s64, if_pos ha]

theorem exec_ln_of_pos {a : Word} (b : Word) (s : State) (ha : 0 < a.toInt) :
    exec (.ln a b) s = finish (.value (mulRaw (log2Raw a.toNat) LN2)) s := by
  change execLn a s = _
  rw [execLn, fixOperand, s64, if_neg ha.not_ge, toNat_toInt_of_nonneg ha.le]

/-- Settles O45: the multiplier reads back the logarithm that LOG2 answers. -/
theorem lnIsLogTwoTimesLnTwo : Obligations.LnIsLogTwoTimesLnTwo := by
  intro a b s
  refine ⟨fun hnonpos => exec_of_finish_domain (exec_ln_of_nonpos b s hnonpos), fun ha => ?_⟩
  have hmul := exec_mul_eq (u64 (log2Raw a.toNat)) 0x00000000B17217F7 s
  rw [toInt_u64_log2Raw ha.le] at hmul
  exact ⟨_, _, exec_of_finish_value (exec_log2_of_pos b s ha) rfl, exec_of_finish_value hmul rfl,
    exec_of_finish_value (exec_ln_of_pos b s ha) rfl⟩

end Sys2Proof.Machine
end

section
/-! SUPPORT. Powers: the terms of the exponential series and a bound on their sum, the three ranges of POW2, and the
rows of POW (44_sqrt_log_pow.md R167, R170). -/

namespace Sys2Proof.Machine

open Sys2Proof.Config

/-! ### The series (R167) -/

/-- The terms of the truncated series: the `k`-th is `t ^ k / k!` with 62 fraction bits, truncated at each
step. -/
def pow2Term (t : Nat) : Nat → Nat
  | 0 => 2 ^ 62
  | k + 1 => pow2Term t k * t / 2 ^ 62 / (k + 1)

/-- From the sum of the terms up to the `k`-th, the loop goes on to the sum of `n` more. -/
theorem pow2Loop_eq_sum (t n k : Nat) :
    pow2Loop t n (k + 1) (pow2Term t k) (∑ i ∈ Finset.range (k + 1), pow2Term t i) =
      ∑ i ∈ Finset.range (n + k + 1), pow2Term t i := by
  induction n generalizing k with
  | zero => rw [pow2Loop, Nat.zero_add]
  | succ n ih =>
    rw [Nat.add_right_comm n 1 k, Nat.add_assoc n k 1, ← ih (k + 1), Finset.sum_range_succ _ (k + 1)]
    rfl

theorem pow2Series_eq_sum (f : Nat) :
    pow2Series f = ∑ k ∈ Finset.range 25, pow2Term (f * LN2_Q64 / 2 ^ 34) k := by
  have h := pow2Loop_eq_sum (f * LN2_Q64 / 2 ^ 34) POW2_TERMS 0
  rw [Finset.sum_range_one] at h
  exact h

/-- Below 0.7 each term is at most 0.7 of the one before it. -/
theorem pow2Term_succ_le {t : Nat} (ht : 10 * t ≤ 7 * 2 ^ 62) (k : Nat) :
    10 * pow2Term t (k + 1) ≤ 7 * pow2Term t k := by
  have hdiv : pow2Term t (k + 1) ≤ pow2Term t k * t / 2 ^ 62 := Nat.div_le_self _ _
  have hmul : pow2Term t k * (10 * t) ≤ pow2Term t k * (7 * 2 ^ 62) := Nat.mul_le_mul_left _ ht
  rw [Nat.mul_left_comm] at hmul
  omega

/-- The terms of the series stay below the geometric series with the ratio 0.7. -/
theorem sum_pow2Term_le {t : Nat} (ht : 10 * t ≤ 7 * 2 ^ 62) (n : Nat) :
    3 * ∑ k ∈ Finset.range n, pow2Term t k + 10 * pow2Term t n ≤ 10 * 2 ^ 62 := by
  induction n with
  | zero => rw [Finset.sum_range_zero, pow2Term, Nat.mul_zero, Nat.zero_add]
  | succ n ih =>
    rw [Finset.sum_range_succ]
    have hstep := pow2Term_succ_le ht n
    omega

/-- The sum of the series for a fraction field fits a word: ln 2 is below 0.7. -/
theorem pow2Series_lt {f : Nat} (hf : f < 2 ^ 32) : pow2Series f < 2 ^ 64 := by
  have ht : 10 * (f * LN2_Q64 / 2 ^ 34) ≤ 7 * 2 ^ 62 := by
    unfold LN2_Q64
    omega
  have hsum := sum_pow2Term_le ht 25
  rw [pow2Series_eq_sum]
  omega

/-! ### POW2 (R167) -/

theorem exec_pow2_eq (a b : Word) (s : State) :
    exec (.pow2 a b) s = finish (.value (pow2Raw a.toInt)) s := rfl

theorem pow2Raw_of_ge {v : Int} (h : 31 ≤ v / 2 ^ 32) : pow2Raw v = MAXV := by
  rw [← asr_eq_ediv] at h
  exact if_pos h

theorem pow2Raw_of_le {v : Int} (h : v / 2 ^ 32 ≤ -33) : pow2Raw v = 0 := by
  rw [← asr_eq_ediv] at h
  exact (if_neg (by omega)).trans (if_pos h)

/-- Between the two ends POW2 shifts the series of the fraction field by its floor. -/
theorem pow2Raw_of_mid {a : Word} (hlow : -32 ≤ a.toInt / 2 ^ 32) (hhigh : a.toInt / 2 ^ 32 ≤ 30) :
    pow2Raw a.toInt =
      ((pow2Series (fracField a) / 2 ^ (30 - a.toInt / 2 ^ 32).toNat : Nat) : Int) := by
  have hfrac : (a.toInt - shl (asr a.toInt 32) 32).toNat = fracField a := by
    have := fracField_eq_emod a
    rw [shl_eq_mul, asr_eq_ediv]
    omega
  simp only [pow2Raw]
  rw [hfrac, asr_eq_ediv, if_neg (by omega), if_neg (by omega)]

/-- Settles O46, by the three ranges of the floor; between the ends the loop is the sum of the terms. -/
theorem powTwoSumsTheExponentialSeries : Obligations.PowTwoSumsTheExponentialSeries := by
  intro a b s n t
  refine ⟨fun hge => ?above, fun hle => ?below, fun hlow hhigh => ?mid⟩
  case above => exact exec_of_finish_value (exec_pow2_eq a b s) (by rw [pow2Raw_of_ge hge, u64_MAXV])
  case below => exact exec_of_finish_value (exec_pow2_eq a b s) (by rw [pow2Raw_of_le hle]; rfl)
  case mid =>
    have hfits := pow2Series_lt (f := fracField a) (a.extractLsb' 0 32).isLt
    refine ⟨_, pow2Term t, exec_of_finish_value (exec_pow2_eq a b s) rfl, rfl, fun k _ => rfl, ?_⟩
    rw [pow2Raw_of_mid hlow hhigh, toNat_u64 _ ((Nat.div_le_self _ _).trans_lt hfits), pow2Series_eq_sum]
    rfl

/-! ### POW (R170) -/

theorem exec_pow_eq (a b : Word) (s : State) :
    exec (.pow a b) s = finish (powRaw a.toInt b.toInt) s := rfl

theorem powRaw_exponent_zero (a : Int) : powRaw a 0 = .value ONE := if_pos rfl

theorem powRaw_zero_of_neg {b : Int} (hb : b < 0) : powRaw 0 b = .raise .divByZero := by
  rw [powRaw, if_neg hb.ne, if_pos ⟨rfl, hb⟩]

theorem powRaw_zero_of_pos {b : Int} (hb : 0 < b) : powRaw 0 b = .value 0 := by
  rw [powRaw, if_neg hb.ne', if_neg fun h => hb.not_gt h.2, if_neg (lt_irrefl 0), if_pos rfl]

theorem powRaw_of_neg {a b : Int} (ha : a < 0) (hb : b ≠ 0) : powRaw a b = .raise .domain := by
  rw [powRaw, if_neg hb, if_neg fun h => ha.ne h.1, if_pos ha]

theorem powRaw_of_pos {a b : Int} (ha : 0 < a) (hb : b ≠ 0) :
    powRaw a b = .value (pow2Raw (mulRaw b (log2Raw a.toNat))) := by
  rw [powRaw, if_neg hb, if_neg fun h => ha.ne' h.1, if_neg ha.not_gt, if_neg ha.ne']

/-- Settles O48, by the rows of R170; in the last each of the three units reads back the word that the one before
it answers. -/
theorem powTakesTheRowOfItsTable : Obligations.PowTakesTheRowOfItsTable := by
  intro a b s
  have harm := exec_pow_eq a b s
  refine ⟨?exponentZero, ?zeroToNegative, ?zeroToPositive, fun ha hb => ?negative, fun ha hb => ?positive⟩
  case exponentZero =>
    rintro rfl
    exact exec_of_finish_value (harm.trans (congrArg (finish · s) (powRaw_exponent_zero _))) u64_ONE
  case zeroToNegative =>
    rintro rfl hb
    exact exec_of_finish_divByZero (harm.trans (congrArg (finish · s) (powRaw_zero_of_neg hb)))
  case zeroToPositive =>
    rintro rfl hb
    exact exec_of_finish_value (harm.trans (congrArg (finish · s) (powRaw_zero_of_pos hb))) rfl
  case negative =>
    exact exec_of_finish_domain (harm.trans (congrArg (finish · s) (powRaw_of_neg ha (toInt_ne_zero hb))))
  case positive =>
    rw [powRaw_of_pos ha (toInt_ne_zero hb), toNat_toInt_of_nonneg ha.le] at harm
    have hmul := exec_mul_eq b (u64 (log2Raw a.toNat)) s
    rw [toInt_u64_log2Raw ha.le] at hmul
    have hpow2 := exec_pow2_eq (u64 (mulRaw b.toInt (log2Raw a.toNat))) 0 s
    rw [toInt_u64_mulRaw] at hpow2
    exact ⟨_, _, _, exec_of_finish_value (exec_log2_of_pos 0 s ha) rfl, exec_of_finish_value hmul rfl,
      exec_of_finish_value hpow2 rfl, exec_of_finish_value harm rfl⟩

end Sys2Proof.Machine
end

section
/-! SUPPORT. The sines: the reduction of an angle to a quadrant, what the two table reads answer for a table angle,
and the commands over them, whose values fit a word (45_trigonometry.md R194 to R201, R206). -/

namespace Sys2Proof.Machine

open Sys2Proof.Config

/-- A command whose rule ends with a value that fits a word answers OK and a word with that signed value. -/
theorem exec_of_finish_fits {i : Instr} {s : State} {v : Int} (harm : exec i s = finish (.value v) s)
    (hfits : v.natAbs < 2 ^ 63) :
    ∃ r : Word, exec i s = .next { s with phase := .done, err_q := 0, res_q := r } ∧ r.toInt = v :=
  ⟨u64 v, exec_of_finish_value harm rfl, toInt_u64 v (by omega) (by omega)⟩

/-! ### The reduction (R194) -/

/-- No table angle leaves the quarter period. -/
theorem reduceAngle_snd_le (Y : Int) : (reduceAngle Y).2 ≤ PI_OVER_2 := by
  have hquarter : PIO2_Q96 / 2 ^ 64 = PI_OVER_2 := by decide
  have hoffset : Y.natAbs % TWO_PI_Q96 % PIO2_Q96 < PIO2_Q96 := Nat.mod_lt _ (by decide)
  rw [← hquarter]
  refine Nat.div_le_div_right ?_
  split <;> omega

/-- Settles O51: the periods, the quadrants and the offset are the quotients and the remainder of the two
divisions. -/
theorem angleReductionIsByQuadrants : Obligations.AngleReductionIsByQuadrants := by
  intro Y
  have hperiod := Nat.div_add_mod' Y.natAbs TWO_PI_Q96
  have hquadrant := Nat.div_add_mod' (Y.natAbs % TWO_PI_Q96) PIO2_Q96
  have hlt : Y.natAbs % TWO_PI_Q96 < 4 * PIO2_Q96 := Nat.mod_lt _ (by decide)
  refine ⟨Y.natAbs / TWO_PI_Q96, Y.natAbs % TWO_PI_Q96 / PIO2_Q96, Y.natAbs % TWO_PI_Q96 % PIO2_Q96,
    ?parts, Nat.le_of_lt_succ (Nat.div_lt_of_lt_mul (by omega)), Nat.mod_lt _ (by decide), rfl,
    reduceAngle_snd_le Y, ?sign⟩
  case parts =>
    rw [add_assoc, hquadrant]
    exact hperiod.symm
  case sign =>
    by_cases hhalf : 2 ≤ Y.natAbs % TWO_PI_Q96 / PIO2_Q96 <;> simp [reduceAngle, hhalf]

/-! ### The table reads (R196, R199) -/

/-- The precise read interpolates between entries of the table. -/
theorem lutPrecise_interpolates {t : Nat} (ht : t ≤ PI_OVER_2) : InterpolatedEntry t (lutPrecise t) := by
  have hpos : 0 < PI_OVER_2 := by decide
  have hsplit := Nat.div_add_mod' (t * 2 ^ 17) PI_OVER_2
  have hrem := Nat.mod_lt (t * 2 ^ 17) hpos
  have hidx : t * 2 ^ 17 / PI_OVER_2 ≤ 131072 := Nat.div_le_of_le_mul (Nat.mul_le_mul_right _ ht)
  refine ⟨t * 2 ^ 17 / PI_OVER_2, t * 2 ^ 17 % PI_OVER_2, hsplit.symm, hrem, hidx, ?_⟩
  by_cases hzero : t * 2 ^ 17 % PI_OVER_2 = 0
  · exact .inl ⟨hzero, if_pos hzero⟩
  · have hnext : t * 2 ^ 17 / PI_OVER_2 + 1 ≤ 131072 := by
      unfold PI_OVER_2 at *
      omega
    exact .inr ⟨hzero, hnext, _, if_neg hzero, Int.ediv_mul_le _ (by decide),
      Int.lt_ediv_add_one_mul_self _ (by decide)⟩

/-- The fast read takes the nearest entry of the coarse view. -/
theorem lutFast_takes_coarse_entry {t : Nat} (ht : t ≤ PI_OVER_2) : CoarseEntry t (lutFast t) := by
  refine ⟨(t * 2 ^ FAST_BITS + PI_OVER_2 / 2) / PI_OVER_2, ?range, ?entry, Nat.div_mul_le_self _ _,
    Nat.lt_mul_of_div_lt (Nat.lt_succ_self _) (by decide)⟩
  case range =>
    unfold PI_OVER_2 FAST_BITS at *
    omega
  case entry => rw [mul_comm]; rfl

/-- An interpolated value fits a word: the entries have 33 bits, and so has the part of the way between two. -/
theorem InterpolatedEntry.natAbs_lt {t : Nat} {v : Int} (h : InterpolatedEntry t v) : v.natAbs < 2 ^ 63 := by
  obtain ⟨idx, rem, -, hrem, -, hvalue⟩ := h
  have hentry_nonneg := romSin_nonneg idx
  have hentry_lt := romSin_lt idx
  have hnext_nonneg := romSin_nonneg (idx + 1)
  have hnext_lt := romSin_lt (idx + 1)
  rcases hvalue with ⟨-, rfl⟩ | ⟨-, -, e, rfl, hlow, hhigh⟩
  · omega
  · have hup : (romSin (idx + 1) - romSin idx) * rem ≤ 2 ^ 33 * rem :=
      mul_le_mul_of_nonneg_right (by omega) (by omega)
    have hdown : -2 ^ 33 * (rem : Int) ≤ (romSin (idx + 1) - romSin idx) * rem :=
      mul_le_mul_of_nonneg_right (by omega) (by omega)
    unfold PI_OVER_2 at *
    omega

theorem CoarseEntry.natAbs_lt {t : Nat} {v : Int} (h : CoarseEntry t v) : v.natAbs < 2 ^ 63 := by
  obtain ⟨j, -, rfl, -⟩ := h
  have := romSin_nonneg (8 * j)
  have := romSin_lt (8 * j)
  omega

/-! ### The commands (R195, R197, R198, R200, R201) -/

theorem SineBy.natAbs_lt {entry : Nat → Int → Prop} (hfits : ∀ {t v}, entry t v → v.natAbs < 2 ^ 63) {Y v : Int}
    (h : SineBy entry Y v) : v.natAbs < 2 ^ 63 := by
  obtain ⟨neg, t, w, -, hentry, rfl⟩ := h
  cases neg with
  | false => exact hfits hentry
  | true => exact w.natAbs_neg.trans_lt (hfits hentry)

/-- The core over a table read that answers entries is the sine by those entries. -/
theorem sinCore_sineBy {entry : Nat → Int → Prop} {lut : Nat → Int}
    (hlut : ∀ {t}, t ≤ PI_OVER_2 → entry t (lut t)) (Y : Int) : SineBy entry Y (sinCore lut Y) :=
  ⟨_, _, _, angleReductionIsByQuadrants Y, hlut (reduceAngle_snd_le Y), rfl⟩

/-- A command that ends with the core's sine answers a word whose value is the sine. -/
theorem exec_of_finish_sinCore {entry : Nat → Int → Prop} {lut : Nat → Int} {i : Instr} {s : State} {Y : Int}
    (harm : exec i s = finish (.value (sinCore lut Y)) s)
    (hlut : ∀ {t}, t ≤ PI_OVER_2 → entry t (lut t)) (hfits : ∀ {t v}, entry t v → v.natAbs < 2 ^ 63) :
    ∃ r : Word, exec i s = .next { s with phase := .done, err_q := 0, res_q := r } ∧ SineBy entry Y r.toInt := by
  have hsine := sinCore_sineBy hlut Y
  obtain ⟨r, hexec, hvalue⟩ := exec_of_finish_fits harm (hsine.natAbs_lt hfits)
  exact ⟨r, hexec, hvalue ▸ hsine⟩

/-- Settles O52: both commands are the core with the precise read. -/
theorem sinCosReduceAndInterpolate : Obligations.SinCosReduceAndInterpolate := by
  intro a b s
  obtain ⟨x, hsin, hx⟩ := exec_of_finish_sinCore (i := .sin a b) (s := s) (Y := a.toInt * 2 ^ 64) rfl
    lutPrecise_interpolates InterpolatedEntry.natAbs_lt
  obtain ⟨y, hcos, hy⟩ := exec_of_finish_sinCore (i := .cos a b) (s := s) (Y := a.toInt * 2 ^ 64 + PIO2_Q96) rfl
    lutPrecise_interpolates InterpolatedEntry.natAbs_lt
  exact ⟨x, y, hsin, hcos, hx, hy⟩

/-- Settles O53: both commands are the core with the fast read. -/
theorem fastSinCosTakeTheCoarseEntry : Obligations.FastSinCosTakeTheCoarseEntry := by
  intro a b s
  obtain ⟨x, hsin, hx⟩ := exec_of_finish_sinCore (i := .fastsin a b) (s := s) (Y := a.toInt * 2 ^ 64) rfl
    lutFast_takes_coarse_entry CoarseEntry.natAbs_lt
  obtain ⟨y, hcos, hy⟩ := exec_of_finish_sinCore (i := .fastcos a b) (s := s)
    (Y := a.toInt * 2 ^ 64 + PIO2_Q96) rfl lutFast_takes_coarse_entry CoarseEntry.natAbs_lt
  exact ⟨x, y, hsin, hcos, hx, hy⟩

/-! ### TAN (R206) -/

/-- The precise sine of every angle fits a word, so the divider reads back the value that SIN or COS answers. -/
theorem natAbs_sinCore_lutPrecise_lt (Y : Int) : (sinCore lutPrecise Y).natAbs < 2 ^ 63 :=
  (sinCore_sineBy lutPrecise_interpolates Y).natAbs_lt InterpolatedEntry.natAbs_lt

/-- Settles O56: TAN ends as the divider does on the values of the two words, by the two cases of O33. -/
theorem tanDividesSinByCos : Obligations.TanDividesSinByCos := by
  intro a b s
  obtain ⟨x, hsin, hx⟩ := exec_of_finish_fits (i := .sin a b) (s := s) rfl (natAbs_sinCore_lutPrecise_lt _)
  obtain ⟨y, hcos, hy⟩ := exec_of_finish_fits (i := .cos a b) (s := s) rfl (natAbs_sinCore_lutPrecise_lt _)
  have htan : exec (.tan a b) s = exec (.div x y) s := by
    change finish (divRaw (sinRaw a.toInt) (cosRaw a.toInt)) s = finish (divRaw x.toInt y.toInt) s
    rw [hx, hy]
    rfl
  obtain ⟨hzero, hnonzero⟩ := divTruncatesTowardZeroThenSaturates x y s
  refine ⟨x, y, hsin, hcos, fun h => htan.trans (hzero h), fun h => ?_⟩
  obtain ⟨r, hdiv, -⟩ := hnonzero h
  exact ⟨r, hdiv, htan.trans hdiv⟩

end Sys2Proof.Machine
end

section
/-! SUPPORT. The arctangents: the states of the vectoring iterations, the core's answer as the angle they reach, and
the commands over it, whose values fit a word (45_trigonometry.md R204, R207 to R209). -/

namespace Sys2Proof.Machine

open Sys2Proof.Config

/-! ### The vectoring iterations (R204) -/

/-- The point and the angle that the vectoring iterations carry. -/
structure Vectoring where
  /-- The abscissa. -/
  x : Int
  /-- The ordinate, driven to zero. -/
  y : Int
  /-- The angle added up so far. -/
  ang : Int

/-- The iteration with the index `i`. -/
def Vectoring.step (i : Nat) (p : Vectoring) : Vectoring :=
  if 0 ≤ p.y then ⟨p.x + p.y / 2 ^ i, p.y - p.x / 2 ^ i, p.ang + romAtan i⟩
  else ⟨p.x - p.y / 2 ^ i, p.y + p.x / 2 ^ i, p.ang - romAtan i⟩

/-- What the first `n` iterations reach. -/
def Vectoring.after (p : Vectoring) : Nat → Vectoring
  | 0 => p
  | i + 1 => (p.after i).step i

theorem Vectoring.step_of_nonneg {p : Vectoring} (i : Nat) (h : 0 ≤ p.y) :
    p.step i = ⟨p.x + p.y / 2 ^ i, p.y - p.x / 2 ^ i, p.ang + romAtan i⟩ := if_pos h

theorem Vectoring.step_of_neg {p : Vectoring} (i : Nat) (h : p.y < 0) :
    p.step i = ⟨p.x - p.y / 2 ^ i, p.y + p.x / 2 ^ i, p.ang - romAtan i⟩ := if_neg h.not_ge

/-- One turn of the loop is the step with its index. -/
theorem cordicLoop_succ (n i : Nat) (p : Vectoring) :
    cordicLoop (n + 1) i p.x p.y p.ang =
      cordicLoop n (i + 1) (p.step i).x (p.step i).y (p.step i).ang := by
  rw [cordicLoop, asr_eq_ediv, asr_eq_ediv]
  rcases le_or_gt 0 p.y with h | h
  · rw [if_pos h, p.step_of_nonneg i h]
  · rw [if_neg h.not_ge, p.step_of_neg i h]

/-- From what the first `i` iterations reach, the loop goes on to the angle of `n` more. -/
theorem cordicLoop_after (p : Vectoring) (n i : Nat) :
    cordicLoop n i (p.after i).x (p.after i).y (p.after i).ang = (p.after (i + n)).ang := by
  induction n generalizing i with
  | zero => rfl
  | succ n ih =>
    rw [cordicLoop_succ, Nat.add_comm n 1, ← Nat.add_assoc, ← ih (i + 1)]
    rfl

/-! ### The core (R204) -/

theorem normalise_of_le {p : Nat} (hp : p ≤ 60) (v : Nat) : (normalise p v : Int) = v * 2 ^ (60 - p) := by
  rw [normalise, CORDIC_NORM_BITS, if_pos hp]
  push_cast
  rfl

theorem normalise_of_gt {p : Nat} (hp : 60 < p) (v : Nat) : (normalise p v : Int) = v / 2 ^ (p - 60) := by
  rw [normalise, CORDIC_NORM_BITS, if_neg hp.not_ge]
  push_cast
  rfl

/-- The point scaled to 60 bits, from which the iterations start. -/
def Vectoring.start (x y : Nat) : Vectoring :=
  ⟨normalise (bitlen (max x y)) x, normalise (bitlen (max x y)) y, 0⟩

/-- The two tests at the end of the core clamp to the quarter period. -/
theorem clamp_to_quarter (v : Int) :
    (if v < 0 then 0 else if (PI_OVER_2 : Int) < v then (PI_OVER_2 : Int) else v) = max 0 (min 0x1921FB544 v) := by
  unfold PI_OVER_2
  split_ifs <;> omega

/-- Off the axes the core is the rounded and clamped angle of the 40 iterations. -/
theorem atanCore_of_ne_zero {x y : Nat} (hx : x ≠ 0) (hy : y ≠ 0) :
    atanCore x y = max 0 (min 0x1921FB544 ((((Vectoring.start x y).after 40).ang + 2 ^ 28) / 2 ^ 29)) := by
  have hloop : _ = ((Vectoring.start x y).after 40).ang :=
    cordicLoop_after (Vectoring.start x y) CORDIC_ITERS 0
  rw [← clamp_to_quarter, ← asr_eq_ediv, ← hloop]
  exact (if_neg hy).trans (if_neg hx)

/-- The core answers the vectoring angle of its point. -/
theorem vectoringAngle_atanCore (x y : Nat) : VectoringAngle x y (atanCore x y) := by
  by_cases hy : y = 0
  · exact .inl ⟨hy, if_pos hy⟩
  by_cases hx : x = 0
  · exact .inr (.inl ⟨hy, hx, (if_neg hy).trans (if_pos hx)⟩)
  have hmax : max x y ≠ 0 := by omega
  refine .inr (.inr ⟨hy, hx, bitlen (max x y), fun i => ((Vectoring.start x y).after i).x,
    fun i => ((Vectoring.start x y).after i).y, fun i => ((Vectoring.start x y).after i).ang,
    ?low, lt_two_pow_msb_succ _, fun hp => ⟨normalise_of_le hp x, normalise_of_le hp y⟩,
    fun hp => ⟨normalise_of_gt hp x, normalise_of_gt hp y⟩, rfl, fun i _ h => ?nonneg, fun i _ h => ?neg,
    atanCore_of_ne_zero hx hy⟩)
  case low =>
    rw [bitlen, pow_succ']
    exact Nat.mul_le_mul_left 2 (two_pow_msb_le hmax)
  case nonneg => simp only [Vectoring.after, Vectoring.step_of_nonneg i h, and_self]
  case neg => simp only [Vectoring.after, Vectoring.step_of_neg i h, and_self]

/-- A vectoring angle lies in the first quadrant. -/
theorem VectoringAngle.bounds {x y : Nat} {v : Int} (h : VectoringAngle x y v) : 0 ≤ v ∧ v ≤ 0x1921FB544 := by
  obtain ⟨-, rfl⟩ | ⟨-, -, rfl⟩ | ⟨-, -, p, X, Y, A, -, -, -, -, -, -, -, rfl⟩ := h <;> omega

/-! ### ATAN and ATAN2 (R207, R208) -/

/-- ATAN2 mirrors the core's angle for a negative abscissa and negates it for a negative ordinate. -/
theorem atan2Raw_eq (y x : Int) :
    atan2Raw y x = (if y < 0 then -1 else 1) *
      (if x < 0 then 0x3243F6A88 - atanCore x.natAbs y.natAbs else atanCore x.natAbs y.natAbs) := by
  rw [ite_mul, neg_one_mul, one_mul]
  rfl

/-- Settles O57: the core answers both angles, and mirrored and negated they still fit a word. -/
theorem atanAndAtanTwoFoldToTheFirstQuadrant : Obligations.AtanAndAtanTwoFoldToTheFirstQuadrant := by
  intro a b s
  have hv := vectoringAngle_atanCore (2 ^ 32) a.toInt.natAbs
  have hw := vectoringAngle_atanCore b.toInt.natAbs a.toInt.natAbs
  obtain ⟨hv0, hv1⟩ := hv.bounds
  obtain ⟨hw0, hw1⟩ := hw.bounds
  have hatan2 : exec (.atan2 a b) s = finish (.value (atan2Raw a.toInt b.toInt)) s := rfl
  rw [atan2Raw_eq] at hatan2
  obtain ⟨r, hr, hrv⟩ := exec_of_finish_fits (i := .atan a b) (s := s)
    (v := if a.toInt < 0 then -atanCore (2 ^ 32) a.toInt.natAbs else atanCore (2 ^ 32) a.toInt.natAbs) rfl
    (by split <;> omega)
  obtain ⟨q, hq, hqv⟩ := exec_of_finish_fits hatan2 (by split_ifs <;> omega)
  exact ⟨r, q, _, _, hr, hq, hv, hrv, hw, hqv⟩

/-! ### ACOS (R209) -/

theorem exec_acos_eq (a b : Word) (s : State) : exec (.acos a b) s = finish (acosRaw a.toInt) s := rfl

theorem acosRaw_of_outside {a : Int} (ha : a < -2 ^ 32 ∨ 2 ^ 32 < a) : acosRaw a = .raise .domain := if_pos ha

theorem acosRaw_of_inside {a : Int} (hlow : -2 ^ 32 ≤ a) (hhigh : a ≤ 2 ^ 32) :
    acosRaw a = .value (if a < 0 then 0x3243F6A88 - atanCore a.natAbs (isqrt (2 ^ 64 - a * a).toNat)
      else atanCore a.natAbs (isqrt (2 ^ 64 - a * a).toNat)) :=
  if_neg (not_or.mpr ⟨hlow.not_gt, hhigh.not_gt⟩)

/-- Settles O58: the radicand is not negative inside the domain, so the ordinate is its integer root, and the
angle fits a word. -/
theorem acosIsTheAngleOfItsPoint : Obligations.AcosIsTheAngleOfItsPoint := by
  intro a b s
  have harm := exec_acos_eq a b s
  refine ⟨fun hout => ?outside, fun hlow hhigh => ?inside⟩
  case outside =>
    rw [acosRaw_of_outside hout] at harm
    exact exec_of_finish_domain harm
  case inside =>
    rw [acosRaw_of_inside hlow hhigh] at harm
    have hradicand : 0 ≤ 2 ^ 64 - a.toInt * a.toInt := by nlinarith
    have hsquare := mul_self_nonneg a.toInt
    obtain ⟨hroot, hnext⟩ := isqrt_spec (r := (2 ^ 64 - a.toInt * a.toInt).toNat) (by omega)
    have hangle := vectoringAngle_atanCore a.toInt.natAbs (isqrt (2 ^ 64 - a.toInt * a.toInt).toNat)
    obtain ⟨hv0, hv1⟩ := hangle.bounds
    obtain ⟨r, hexec, hvalue⟩ := exec_of_finish_fits harm (by split <;> omega)
    refine ⟨r, _, _, hexec, ?_, ?_, hangle, hvalue⟩
    · rw [← Int.toNat_of_nonneg hradicand]
      exact_mod_cast hroot
    · rw [← Int.toNat_of_nonneg hradicand]
      exact_mod_cast hnext

end Sys2Proof.Machine
end

section
/-! SUPPORT. EXECUTE of any latched word, a command or a reserved code, ends by `finish` too, so what holds of
every result holds of every response (60_exceptions.md R240, R243). -/

namespace Sys2Proof.Machine

/-- EXECUTE of a latched command is the rule of the command (R21). -/
theorem execute_of_instr {s : State} {i : Instr} (hdecode : decode s.latchedCommand = .instr i) :
    execute s = exec i s := by
  rw [execute, hdecode]

/-- EXECUTE of a latched reserved code raises ILLEGAL_COMMAND (R56, R240). -/
theorem execute_of_reservedCode {s : State} {op : OpCode}
    (hdecode : decode s.latchedCommand = .reservedCode op) :
    execute s = finish (.raise .illegalCommand) s := by
  rw [execute, hdecode]
  rfl

/-- EXECUTE ends by `finish` whatever word is latched: with the command's own result, or with the error of a
reserved code (R240). -/
theorem execute_eq_finish (s : State) : ∃ r : Result, execute s = finish r s := by
  cases hdecode : decode s.latchedCommand with
  | instr i =>
    obtain ⟨r, hexec⟩ := exec_eq_finish i
    exact ⟨r, (execute_of_instr hdecode).trans (hexec s)⟩
  | reservedCode op => exact ⟨.raise .illegalCommand, execute_of_reservedCode hdecode⟩

/-- Settles O15: the response latch holds the code and the word of one result, and a result with an error code
has the zero word. -/
theorem errorCarriesTheZeroWord : Obligations.ErrorCarriesTheZeroWord := by
  intro s t hnext herr
  obtain ⟨r, hfinish⟩ := execute_eq_finish s
  rw [hfinish, finish_eq] at hnext
  obtain rfl := Host.Outcome.next.inj hnext
  exact r.res_of_err_ne_zero herr

end Sys2Proof.Machine
end

section
/-! SUPPORT. The opcode map taken backwards: a command that the decoder answers carries the code and the operands it
was read from, and which codes are reserved does not depend on the operands (30_encoding.md R50, R55, R56). -/

namespace Sys2Proof

/-- The opcode map keeps the three fields it is given: they are those of the command it answers. -/
theorem fields_of_decodeFields {op : OpCode} {a b : Word} {i : Instr} (h : decodeFields op a b = .instr i) :
    i.opcode = op ∧ i.opA = a ∧ i.opB = b := by
  unfold decodeFields at h
  split at h <;> cases h <;> exact ⟨rfl, rfl, rfl⟩

/-- Settles O1: decoding a command's word reads its fields back, and the fields of a decoded word make it up. -/
theorem decodeIsInverseOfEncode : Obligations.DecodeIsInverseOfEncode := by
  intro cw i
  constructor
  · intro hdecode
    obtain ⟨hop, ha, hb⟩ := fields_of_decodeFields hdecode
    rw [encode, hop, ha, hb, commandWord_fields]
  · rintro rfl
    rw [encode, decode_commandWord, Machine.decodeFields_of_instr]

/-- Operand bits never take part in the choice of the command (R55): whether a code is reserved shows with zero
operands. -/
theorem decodeFields_reserved_iff (op op' : OpCode) (a b : Word) :
    decodeFields op a b = .reservedCode op' ↔ decodeFields op 0 0 = .reservedCode op' := by
  unfold decodeFields
  split <;> simp

/-- Settles O2: with zero operands there are 256 codes to look at. -/
theorem decoderRefusesExactlyTheReservedCodes : Obligations.DecoderRefusesExactlyTheReservedCodes := by
  intro op a b
  rw [decode_commandWord, decodeFields_reserved_iff]
  revert op
  decide

/-- Settles O3, by decoding each of the seven words. -/
theorem writtenWordsDecode : Obligations.WrittenWordsDecode := by
  unfold Obligations.WrittenWordsDecode
  decide

namespace Machine

/-- Settles O16: the decoder refuses the latched code, so EXECUTE raises ILLEGAL_COMMAND. -/
theorem reservedCodeAnswersIllegalCommand : Obligations.ReservedCodeAnswersIllegalCommand := by
  intro s hreserved
  have hdecode := (decoderRefusesExactlyTheReservedCodes s.op_q s.a_q s.b_q).mpr hreserved
  rw [execute_of_reservedCode hdecode, finish_eq, err_illegalCommand, res_raise]

end Machine
end Sys2Proof
end

section
/-! SUPPORT. Edges and steps: the response to a latched word is fixed by the word alone, every edge answers a state,
and what the step of each phase does, with its frame (10_state.md R20 to R22, 70_reset_and_hazards.md R270, R274,
R276). -/

namespace Sys2Proof.Machine

/-! ### EXECUTE and the latch (R21) -/

/-- EXECUTE answers one response for a latched word, in every state that holds the word (R4, R21). -/
theorem execute_eq_answer (cw : CommandWord) :
    ∃ (e : ErrCode) (r : Word), ∀ s : State, s.latchedCommand = cw → execute s = .next (s.answer e r) := by
  cases hdecode : decode cw with
  | instr i =>
    obtain ⟨r, hexec⟩ := exec_eq_finish i
    refine ⟨r.err, r.res, fun s hs => ?_⟩
    rw [execute_of_instr (hs ▸ hdecode), hexec]
    rfl
  | reservedCode op =>
    exact ⟨_, _, fun s hs => execute_of_reservedCode (hs ▸ hdecode)⟩

/-- Every edge answers a state (R240). -/
theorem clockEdge_answers (s : State) : ∃ u, clockEdge s = .next u := by
  obtain ⟨e, r, hexec⟩ := execute_eq_answer s.latchedCommand
  rcases clockEdge_cases s with
    ⟨-, h⟩ | ⟨-, -, -, h⟩ | ⟨-, -, -, h⟩ | ⟨-, -, -, h⟩ | ⟨-, -, -, h⟩ | ⟨-, -, -, h⟩ | ⟨-, -, -, h⟩
  case inr.inr.inr.inl => exact ⟨_, h.trans (hexec s rfl)⟩
  all_goals exact ⟨_, h⟩

/-- The state an edge answers: the reset step, ACCEPT, EXECUTE, one edge of waiting, DELIVER, or no change outside
BUSY. -/
theorem clockEdge_next_cases {s u : State} (hedge : clockEdge s = .next u) :
    (s.pins.reset = true ∧ u = s.resetUnit) ∨
    (s.pins.reset = false ∧ s.phase = .idle ∧ s.pins.cmd_valid = true ∧
      u = s.acceptCommand s.pins.cmd_op s.pins.cmd_a s.pins.cmd_b) ∨
    (s.pins.reset = false ∧ s.phase = .busy ∧ s.wait = 0 ∧ execute s = .next u) ∨
    (s.pins.reset = false ∧ s.phase = .busy ∧ s.wait ≠ 0 ∧ u = s.tick) ∨
    (s.pins.reset = false ∧ s.phase = .done ∧ u = s.deliver) ∨
    (s.pins.reset = false ∧ s.phase ≠ .busy ∧ u = s) := by
  rcases clockEdge_cases s with ⟨hreset, h⟩ | ⟨hreset, hphase, hoffer, h⟩ | ⟨hreset, hphase, -, h⟩ |
      ⟨hreset, hphase, hwait, h⟩ | ⟨hreset, hphase, hwait, h⟩ | ⟨hreset, hphase, -, h⟩ | ⟨hreset, hphase, -, h⟩
  case inr.inr.inr.inl => exact .inr (.inr (.inl ⟨hreset, hphase, hwait, h.symm.trans hedge⟩))
  all_goals obtain rfl := Host.Outcome.next.inj (hedge.symm.trans h)
  · exact .inl ⟨hreset, rfl⟩
  · exact .inr (.inl ⟨hreset, hphase, hoffer, rfl⟩)
  · exact .inr (.inr (.inr (.inr (.inr ⟨hreset, by simp [hphase], rfl⟩))))
  · exact .inr (.inr (.inr (.inl ⟨hreset, hphase, hwait, rfl⟩)))
  · exact .inr (.inr (.inr (.inr (.inl ⟨hreset, hphase, rfl⟩))))
  · exact .inr (.inr (.inr (.inr (.inr ⟨hreset, by simp [hphase], rfl⟩))))

/-! ### The edge of each phase -/

theorem clockEdge_of_reset {s : State} (hreset : s.pins.reset = true) : clockEdge s = .next s.resetUnit :=
  if_pos hreset

theorem clockEdge_of_idle {s : State} (hphase : s.phase = .idle) (hreset : s.pins.reset = false) :
    clockEdge s = .next
      (if s.pins.cmd_valid then s.acceptCommand s.pins.cmd_op s.pins.cmd_a s.pins.cmd_b else s) := by
  simp [clockEdge, hphase, hreset]

theorem clockEdge_of_offer {s : State} (hphase : s.phase = .idle) (hreset : s.pins.reset = false)
    (hoffer : s.pins.cmd_valid = true) :
    clockEdge s = .next (s.acceptCommand s.pins.cmd_op s.pins.cmd_a s.pins.cmd_b) := by
  rw [clockEdge_of_idle hphase hreset, if_pos hoffer]

theorem clockEdge_of_execute {s : State} (hphase : s.phase = .busy) (hreset : s.pins.reset = false)
    (hwait : s.wait = 0) : clockEdge s = execute s := by
  simp [clockEdge, hphase, hreset, hwait]

theorem clockEdge_of_wait {s : State} (hphase : s.phase = .busy) (hreset : s.pins.reset = false)
    (hwait : s.wait ≠ 0) : clockEdge s = .next s.tick := by
  simp [clockEdge, hphase, hreset, hwait]

theorem clockEdge_of_done {s : State} (hphase : s.phase = .done) (hreset : s.pins.reset = false) :
    clockEdge s = .next (if s.pins.rsp_ready then s.deliver else s) := by
  simp [clockEdge, hphase, hreset]

/-! ### The step -/

/-- A step of a host that keeps the handshake is the edge and then the host's next levels. -/
theorem step_of_clockEdge {s u : State} (hkeeps : s.breaksHandshake = false) (hedge : clockEdge s = .next u) :
    step s = .next u.hostDrive :=
  step_next.mpr ⟨hkeeps, u, hedge, rfl⟩

theorem step_of_breaksHandshake {s : State} (hbreaks : s.breaksHandshake = true) :
    step s = .refused .handshakeBroken :=
  if_pos hbreaks

/-- A step is refused exactly for a broken handshake (R274). -/
theorem step_refused_iff (s : State) (r : Refusal) :
    step s = .refused r ↔ s.breaksHandshake = true ∧ r = .handshakeBroken := by
  cases hbreaks : s.breaksHandshake with
  | true => simp [step_of_breaksHandshake hbreaks, eq_comm]
  | false =>
    obtain ⟨u, hedge⟩ := clockEdge_answers s
    simp [step_of_clockEdge hbreaks hedge]

/-- Levels during reset are no offer, so they break none (log entry 4). -/
theorem breaksHandshake_of_reset {s : State} (hreset : s.pins.reset = true) : s.breaksHandshake = false := by
  rw [Bool.eq_false_iff, ne_eq, breaksHandshake_iff]
  simp [hreset]

theorem keepsOffer_iff (p q : HostPins) :
    p.keepsOffer q = true ↔
      q.cmd_valid = true ∧ q.cmd_op = p.cmd_op ∧ q.cmd_a = p.cmd_a ∧ q.cmd_b = p.cmd_b := by
  simp [HostPins.keepsOffer, and_assoc]

/-- Settles O5: the edge of a BUSY unit with nothing left to wait is EXECUTE, which is the rule of the command. -/
theorem stepRunsTheLatchedCommand : Obligations.StepRunsTheLatchedCommand := by
  intro s i hphase hwait hreset hkeeps hdecode
  obtain ⟨r, hexec⟩ := exec_eq_finish i
  have hedge := (clockEdge_of_execute hphase hreset hwait).trans (execute_of_instr hdecode)
  exact ⟨_, hexec s, step_of_clockEdge hkeeps (hedge.trans (hexec s))⟩

/-- Settles O6: the placed word is latched and is the word of the command, and nothing is offered. -/
theorem placedCommandRunsAtTheNextStep : Obligations.PlacedCommandRunsAtTheNextStep := by
  intro s i
  obtain ⟨r, hexec⟩ := exec_eq_finish i
  have hplaced : s.withFetchWord 136 (encode i).toNat = s.holding (encode i) := by
    rw [State.withFetchWord, wordOfBits_toNat]
  have hkeeps : (s.holding (encode i)).breaksHandshake = false := by
    rw [Bool.eq_false_iff, ne_eq, breaksHandshake_iff]
    simp
  have hdecode : decode (s.holding (encode i)).latchedCommand = .instr i := by
    rw [decodeIsInverseOfEncode]
    exact (commandWord_fields _).symm
  rw [hplaced]
  have hedge := (clockEdge_of_execute (s := s.holding (encode i)) rfl rfl rfl).trans (execute_of_instr hdecode)
  exact ⟨_, hexec _, step_of_clockEdge hkeeps (hedge.trans (hexec _))⟩

/-- Settles O7: the edge of an IDLE unit with an offer is ACCEPT. -/
theorem acceptLatchesTheOfferedCommand : Obligations.AcceptLatchesTheOfferedCommand :=
  fun s hphase hreset hoffer =>
    step_of_clockEdge (breaksHandshake_of_idle s hphase) (clockEdge_of_offer hphase hreset hoffer)

/-! ### The response ports (R19, R22) -/

/-- In DONE with `reset` low the response latch stands on the ports. -/
theorem response_of_done {s : State} (hphase : s.phase = .done) (hreset : s.pins.reset = false) :
    s.response = some (s.err_q ++ s.res_q) := by
  simp [State.response, State.rsp_valid, hphase, hreset, responseWord]

theorem response_of_not_done {s : State} (hphase : s.phase ≠ .done) : s.response = none := by
  simp [State.response, State.rsp_valid, hphase]

/-- Settles O8: the edge of a DONE unit with `rsp_ready` high is DELIVER. -/
theorem deliverHandsOverTheResponse : Obligations.DeliverHandsOverTheResponse := by
  intro s hphase hreset hready hkeeps
  have hedge := clockEdge_of_done hphase hreset
  rw [if_pos hready] at hedge
  refine ⟨?_, step_of_clockEdge hkeeps hedge⟩
  rw [State.responseTransfer, if_pos hready, response_of_done hphase hreset]

/-- Settles O9: `reset` high holds both handshake outputs at 0, and the edge is the reset step. -/
theorem resetStepWhateverThePhase : Obligations.ResetStepWhateverThePhase := by
  intro s hreset
  have hready : s.cmd_ready = false := by simp [State.cmd_ready, hreset]
  have hvalid : s.rsp_valid = false := by simp [State.rsp_valid, hreset]
  have hcommand : s.commandTransfer = none := by simp [State.commandTransfer, hready]
  have hresponse : s.responseTransfer = none := by simp [State.responseTransfer, State.response, hvalid]
  exact ⟨hready, hvalid, hcommand, hresponse, _,
    step_of_clockEdge (breaksHandshake_of_reset hreset) (clockEdge_of_reset hreset), rfl,
    response_of_not_done (by simp), rfl, rfl, rfl⟩

/-- Settles O10: the edge of a DONE unit with `rsp_ready` low changes nothing. -/
theorem offeredResponseIsHeld : Obligations.OfferedResponseIsHeld := by
  intro s t hphase hreset hready hstep
  obtain ⟨-, u, hedge, rfl⟩ := step_next.mp hstep
  rw [clockEdge_of_done hphase hreset, hready] at hedge
  obtain rfl : s = u := Host.Outcome.next.inj hedge
  exact ⟨hphase, rfl, rfl, fun hlow => response_of_done (s := s.hostDrive) hphase hlow⟩

/-- Settles O11: the edge always answers, so a refusal is that of a broken handshake, whose condition is the one
stated. -/
theorem stepIsRefusedOnlyForABrokenOffer : Obligations.StepIsRefusedOnlyForABrokenOffer := by
  intro s
  constructor
  · cases hbreaks : s.breaksHandshake with
    | true => exact .inr (step_of_breaksHandshake hbreaks)
    | false =>
      obtain ⟨u, hedge⟩ := clockEdge_answers s
      exact .inl ⟨_, step_of_clockEdge hbreaks hedge⟩
  · rw [step_refused_iff, breaksHandshake_iff, ← keepsOffer_iff, Bool.not_eq_true]
    tauto

/-- Settles O12, by what an edge answers: ACCEPT is a command transfer, EXECUTE is the edge excepted for the
response latch and leaves the command latch, and the other steps outside reset write no latch. -/
theorem latchesAreWrittenOnlyByTheirSteps : Obligations.LatchesAreWrittenOnlyByTheirSteps := by
  intro s t hstep
  obtain ⟨-, u, hedge, rfl⟩ := step_next.mp hstep
  rcases clockEdge_next_cases hedge with ⟨hreset, rfl⟩ | ⟨hreset, hphase, hoffer, rfl⟩ | ⟨-, hphase, hwait, hexec⟩ |
      ⟨-, -, -, rfl⟩ | ⟨-, -, rfl⟩ | ⟨-, -, rfl⟩
  case inl => exact ⟨rfl, fun hlow => by simp [hreset] at hlow, fun hlow => by simp [hreset] at hlow⟩
  case inr.inl =>
    refine ⟨rfl, fun _ hnone => ?_, fun _ _ => ⟨rfl, rfl⟩⟩
    simp [State.commandTransfer, State.cmd_ready, hreset, hphase, hoffer] at hnone
  case inr.inr.inl =>
    obtain ⟨e, r, hanswer⟩ := execute_eq_answer s.latchedCommand
    obtain rfl := Host.Outcome.next.inj (hexec.symm.trans (hanswer s rfl))
    exact ⟨rfl, fun _ _ => ⟨rfl, rfl, rfl⟩, fun _ hnot => absurd ⟨hphase, hwait⟩ hnot⟩
  all_goals exact ⟨rfl, fun _ _ => ⟨rfl, rfl, rfl⟩, fun _ _ => ⟨rfl, rfl⟩⟩

end Sys2Proof.Machine
end

section
/-! SUPPORT. What every step keeps: the invariant of the unit, and the agreement of two states on the bits their
phase uses (10_state.md R11, R12, R23; 70_reset_and_hazards.md R271). -/

namespace Sys2Proof.Machine

/-! ### The invariant -/

/-- The host's levels are not part of what the invariant speaks of: EXECUTE reads the latch alone. -/
theorem State.Inv.hostDrive {s : State} (h : s.Inv) : s.hostDrive.Inv := by
  obtain ⟨hwait, hbound, hdone⟩ := h
  refine ⟨hwait, hbound, fun hphase => ?_⟩
  obtain ⟨e, r, hexec⟩ := execute_eq_answer s.latchedCommand
  have hsame : s.answer e r = s := Host.Outcome.next.inj ((hexec s rfl).symm.trans (hdone hphase))
  exact (hexec s.hostDrive rfl).trans (congrArg Host.Outcome.next (congrArg State.hostDrive hsame))

/-- What EXECUTE answers has the invariant: executing the latched command again gives the same response. -/
theorem inv_of_execute {s t : State} (hwait : s.wait = 0) (hexec : execute s = .next t) : t.Inv := by
  obtain ⟨e, r, hanswer⟩ := execute_eq_answer s.latchedCommand
  obtain rfl := Host.Outcome.next.inj (hexec.symm.trans (hanswer s rfl))
  exact ⟨fun _ => hwait, fun hbusy => by simp at hbusy, fun _ => hanswer (s.answer e r) rfl⟩

/-- An IDLE unit with nothing left to wait has the invariant. -/
theorem inv_of_idle {s : State} (hphase : s.phase = .idle) (hwait : s.wait = 0) : s.Inv :=
  ⟨fun _ => hwait, fun hbusy => by simp [hphase] at hbusy, fun hdone => by simp [hphase] at hdone⟩

/-- Settles O17: the reset state is IDLE and waits for nothing. -/
theorem invariantHoldsAtReset : Obligations.InvariantHoldsAtReset :=
  inv_of_idle rfl rfl

/-- Settles O18, by what an edge answers; the host's levels then change nothing the invariant speaks of. -/
theorem stepKeepsTheInvariant : Obligations.StepKeepsTheInvariant := by
  intro s t hinv hstep
  obtain ⟨-, u, hedge, rfl⟩ := step_next.mp hstep
  obtain ⟨hwait, hbound, hdone⟩ := hinv
  refine State.Inv.hostDrive ?_
  rcases clockEdge_next_cases hedge with ⟨-, rfl⟩ | ⟨-, -, -, rfl⟩ | ⟨-, -, hzero, hexec⟩ |
      ⟨-, hphase, -, rfl⟩ | ⟨-, hphase, rfl⟩ | ⟨-, -, rfl⟩
  case inl => exact inv_of_idle rfl rfl
  case inr.inl => exact ⟨fun hnot => absurd rfl hnot, fun _ => le_rfl, fun h => by simp at h⟩
  case inr.inr.inl => exact inv_of_execute hzero hexec
  case inr.inr.inr.inl =>
    exact ⟨fun hnot => absurd hphase hnot, fun _ => (Nat.sub_le _ 1).trans (hbound hphase),
      fun h => by simp [hphase] at h⟩
  case inr.inr.inr.inr.inl => exact inv_of_idle rfl (hwait (by simp [hphase]))
  case inr.inr.inr.inr.inr => exact ⟨hwait, hbound, hdone⟩

/-- The two fields of a response word (R51). -/
theorem responseWord_wellFormed_iff (err : ErrCode) (res : Word) :
    ResponseWord.wellFormed (responseWord err res) = true ↔ (err ≠ 0 → res = 0) := by
  have herr : (responseWord err res).extractLsb' 64 2 = err := BitVec.extractLsb'_append_eq_left
  have hres : (responseWord err res).extractLsb' 0 64 = res := BitVec.extractLsb'_append_eq_right
  simp only [ResponseWord.wellFormed, herr, hres, Bool.or_eq_true, beq_iff_eq]
  tauto

/-- Settles O19: in DONE the latch holds what EXECUTE answers, and an error of EXECUTE has the zero word. -/
theorem offeredResponseIsWellFormed : Obligations.OfferedResponseIsWellFormed := by
  intro s rw ⟨_, _, hdone⟩ hresponse
  have hphase : s.phase = .done := by
    by_contra hnot
    simp [response_of_not_done hnot] at hresponse
  rw [State.response, Option.ite_none_right_eq_some] at hresponse
  obtain ⟨-, hword⟩ := hresponse
  obtain rfl := Option.some.inj hword
  exact (responseWord_wellFormed_iff _ _).mpr (errorCarriesTheZeroWord s s (hdone hphase))

/-! ### The bits the phase does not use -/

/-- Agreeing states latch the same command while BUSY, so EXECUTE gives them the same response. -/
theorem State.SameLive.execute {s t u : State} (h : s.SameLive t) (hphase : s.phase = .busy)
    (hexec : execute s = .next u) : ∃ v, execute t = .next v ∧ u.SameLive v := by
  obtain ⟨-, hpins, hplan, hlatency, hbusy, -⟩ := h
  obtain ⟨hop, ha, hb, -⟩ := hbusy hphase
  obtain ⟨e, r, hanswer⟩ := execute_eq_answer s.latchedCommand
  obtain rfl := Host.Outcome.next.inj (hexec.symm.trans (hanswer s rfl))
  have hlatch : t.latchedCommand = s.latchedCommand := by
    rw [State.latchedCommand, State.latchedCommand, hop, ha, hb]
  exact ⟨_, hanswer t hlatch, rfl, hpins, hplan, hlatency, fun hnot => by simp at hnot, fun _ => ⟨rfl, rfl⟩⟩

/-- The latency of a command is read from the listing alone. -/
theorem State.extraEdges_congr {s t : State} (h : s.latency = t.latency) : s.extraEdges = t.extraEdges := by
  funext op a b
  rw [State.extraEdges, State.extraEdges, h]

/-- The edges of two agreeing states lead to agreeing states. -/
theorem State.SameLive.clockEdge {s t u : State} (h : s.SameLive t) (hedge : clockEdge s = .next u) :
    ∃ v, Machine.clockEdge t = .next v ∧ u.SameLive v := by
  obtain ⟨hphase, hpins, hplan, hlatency, hbusy, hdone⟩ := id h
  cases hreset : s.pins.reset with
  | true =>
    obtain rfl := Host.Outcome.next.inj (hedge.symm.trans (clockEdge_of_reset hreset))
    exact ⟨_, clockEdge_of_reset (hpins ▸ hreset), rfl, hpins, hplan, hlatency,
      fun hnot => by simp at hnot, fun hnot => by simp at hnot⟩
  | false =>
    have hreset' : t.pins.reset = false := hpins ▸ hreset
    cases hs : s.phase with
    | idle =>
      rw [clockEdge_of_idle hs hreset] at hedge
      rw [clockEdge_of_idle (hphase ▸ hs) hreset', ← hpins]
      obtain rfl := Host.Outcome.next.inj hedge
      refine ⟨_, rfl, ?_⟩
      split
      · exact ⟨rfl, hpins, hplan, hlatency, fun _ => ⟨rfl, rfl, rfl, by simp [State.extraEdges_congr hlatency]⟩,
          fun hnot => by simp at hnot⟩
      · exact h
    | busy =>
      obtain ⟨hop, ha, hb, hwait⟩ := hbusy hs
      by_cases hzero : s.wait = 0
      · rw [clockEdge_of_execute hs hreset hzero] at hedge
        rw [clockEdge_of_execute (hphase ▸ hs) hreset' (hwait ▸ hzero)]
        exact h.execute hs hedge
      · obtain rfl := Host.Outcome.next.inj (hedge.symm.trans (clockEdge_of_wait hs hreset hzero))
        exact ⟨_, clockEdge_of_wait (hphase ▸ hs) hreset' (hwait ▸ hzero), hphase, hpins, hplan, hlatency,
          fun _ => ⟨hop, ha, hb, congrArg (· - 1) hwait⟩, hdone⟩
    | done =>
      rw [clockEdge_of_done hs hreset] at hedge
      rw [clockEdge_of_done (hphase ▸ hs) hreset', ← hpins]
      obtain rfl := Host.Outcome.next.inj hedge
      refine ⟨_, rfl, ?_⟩
      split
      · exact ⟨rfl, hpins, hplan, hlatency, fun hnot => by simp at hnot, fun hnot => by simp at hnot⟩
      · exact h

theorem State.SameLive.nextPins {s t : State} (h : s.SameLive t) : s.nextPins = t.nextPins := by
  obtain ⟨-, hpins, hplan, -⟩ := h
  rw [State.nextPins, State.nextPins, hpins, hplan]

theorem State.SameLive.hostDrive {s t : State} (h : s.SameLive t) : s.hostDrive.SameLive t.hostDrive := by
  have hnext := h.nextPins
  obtain ⟨hphase, -, hplan, hlatency, hbusy, hdone⟩ := h
  exact ⟨hphase, hnext, congrArg List.tail hplan, hlatency, hbusy, hdone⟩

/-- Agreeing states show the same response: outside DONE they show none. -/
theorem State.SameLive.response {s t : State} (h : s.SameLive t) : s.response = t.response := by
  obtain ⟨hphase, hpins, -, -, -, hdone⟩ := h
  by_cases hs : s.phase = .done
  · obtain ⟨herr, hres⟩ := hdone hs
    rw [State.response, State.response, State.rsp_valid, State.rsp_valid, hphase, hpins, herr, hres]
  · rw [response_of_not_done hs, response_of_not_done (hphase ▸ hs)]

/-- Settles O20: the outputs and the host's rule read the phase and the levels, and a step is an edge of the unit and
the host's next levels, which agree again. -/
theorem unusedLatchesCannotBeObserved : Obligations.UnusedLatchesCannotBeObserved := by
  intro s t h
  obtain ⟨hphase, hpins, -⟩ := id h
  have hready : s.cmd_ready = t.cmd_ready := by rw [State.cmd_ready, State.cmd_ready, hphase, hpins]
  have hbreaks : s.breaksHandshake = t.breaksHandshake := by
    rw [State.breaksHandshake, State.breaksHandshake, hpins, hready, h.nextPins]
  refine ⟨hready, ?_, h.response, ?_, ?_, fun s' hstep => ?_, fun r hstep => ?_⟩
  · rw [State.rsp_valid, State.rsp_valid, hphase, hpins]
  · rw [State.commandTransfer, State.commandTransfer, hpins, hready]
  · rw [State.responseTransfer, State.responseTransfer, hpins, h.response]
  · obtain ⟨hkeeps, u, hedge, rfl⟩ := step_next.mp hstep
    obtain ⟨v, hedge', hagree⟩ := h.clockEdge hedge
    exact ⟨_, step_of_clockEdge (hbreaks ▸ hkeeps) hedge', hagree.hostDrive⟩
  · rw [step_refused_iff] at hstep ⊢
    exact hbreaks ▸ hstep

end Sys2Proof.Machine
end

section
/-! SUPPORT. Runs with a host whose levels stay as they are: the edges of waiting, EXECUTE after them, and one whole
transaction (10_state.md R20 to R22, 70_reset_and_hazards.md R276). -/

namespace Sys2Proof.Machine

theorem run_succ_of_step {s t : State} (hstep : step s = .next t) (k : Nat) :
    core.run (k + 1) s = core.run k t := by
  simp only [Host.Core.run, core, hstep]

/-- With an empty plan a step is the edge alone, as long as the edge leaves the plan empty. -/
theorem step_of_plan_nil {s u : State} (hplan : s.plan = []) (hedge : clockEdge s = .next u) (hu : u.plan = []) :
    step s = .next u := by
  rw [step_of_clockEdge (breaksHandshake_of_plan_nil s hplan) hedge, u.hostDrive_of_plan_nil hu]

/-- A BUSY unit counts down its wait, one edge at a time, and does nothing else. -/
theorem run_of_wait {s : State} (hphase : s.phase = .busy) (hreset : s.pins.reset = false) (hplan : s.plan = [])
    {k : Nat} (hk : k ≤ s.wait) (n : Nat) : core.run (n + k) s = core.run n { s with wait := s.wait - k } := by
  induction k generalizing s with
  | zero => rfl
  | succ k ih =>
    have hstep := step_of_plan_nil hplan (clockEdge_of_wait hphase hreset (by omega)) hplan
    rw [← Nat.add_assoc, run_succ_of_step hstep, ih (s := s.tick) hphase hreset hplan (Nat.le_sub_one_of_lt hk)]
    simp only [State.tick, Nat.sub_sub, Nat.add_comm 1 k]

/-- Settles O21: after the edges of waiting comes the EXECUTE edge. -/
theorem busyUnitAnswersAfterItsWait : Obligations.BusyUnitAnswersAfterItsWait := by
  intro s hphase hreset hplan
  obtain ⟨e, r, hanswer⟩ := execute_eq_answer s.latchedCommand
  have hexec := hanswer { s with wait := 0 } rfl
  have hedge := (clockEdge_of_execute (s := { s with wait := 0 }) hphase hreset rfl).trans hexec
  have hstep := step_of_plan_nil (s := { s with wait := 0 }) hplan hedge hplan
  refine ⟨e, r, ?_, hexec⟩
  rw [Nat.add_comm, run_of_wait hphase hreset hplan le_rfl, Nat.sub_self]
  exact run_succ_of_step hstep 0

/-- The first edge of a transaction is ACCEPT. -/
theorem run_of_offer {s : State} (hphase : s.phase = .idle) (hreset : s.pins.reset = false)
    (hoffer : s.pins.cmd_valid = true) (hplan : s.plan = []) (k : Nat) :
    core.run (1 + k) s = core.run k (s.acceptCommand s.pins.cmd_op s.pins.cmd_a s.pins.cmd_b) := by
  rw [Nat.add_comm, run_succ_of_step (step_of_plan_nil hplan (clockEdge_of_offer hphase hreset hoffer) hplan)]

/-- The state in which a transaction ends: DONE, the offered command latched, a response to it. -/
def State.transacted (s : State) (e : ErrCode) (r : Word) : State :=
  { s with phase := .done, op_q := s.pins.cmd_op, a_q := s.pins.cmd_a, b_q := s.pins.cmd_b,
           err_q := e, res_q := r, wait := 0 }

theorem State.response_transacted (s : State) (hreset : s.pins.reset = false) (e : ErrCode) (r : Word) :
    (s.transacted e r).response = some (e ++ r) :=
  response_of_done (s := s.transacted e r) rfl hreset

/-- A whole transaction ends with the response that EXECUTE gives the offered command. -/
theorem run_of_transaction {s : State} (hphase : s.phase = .idle) (hreset : s.pins.reset = false)
    (hoffer : s.pins.cmd_valid = true) (hplan : s.plan = []) {e : ErrCode} {r : Word}
    (hanswer : ∀ u : State, u.latchedCommand = commandWord s.pins.cmd_op s.pins.cmd_a s.pins.cmd_b →
      execute u = .next (u.answer e r)) :
    core.run (1 + s.latencyOf s.pins.cmd_op s.pins.cmd_a s.pins.cmd_b) s = .next (s.transacted e r) := by
  obtain ⟨e', r', hrun, hexec⟩ :=
    busyUnitAnswersAfterItsWait (s.acceptCommand s.pins.cmd_op s.pins.cmd_a s.pins.cmd_b) rfl hreset hplan
  have hresponse := Host.Outcome.next.inj (hexec.symm.trans (hanswer _ rfl))
  rw [run_of_offer hphase hreset hoffer hplan, State.latencyOf]
  exact hrun.trans (congrArg _ hresponse)

/-- Settles O22: ACCEPT, the edges of waiting, EXECUTE. -/
theorem transactionAnswersAfterItsLatency : Obligations.TransactionAnswersAfterItsLatency := by
  intro s hphase hreset hoffer hplan
  obtain ⟨e, r, hanswer⟩ := execute_eq_answer (commandWord s.pins.cmd_op s.pins.cmd_a s.pins.cmd_b)
  refine ⟨fun j hj => ?working, _, run_of_transaction hphase hreset hoffer hplan hanswer, rfl,
    s.response_transacted hreset e r, rfl, rfl, rfl, rfl, hanswer _ rfl⟩
  case working =>
    have hwait : j ≤ (s.acceptCommand s.pins.cmd_op s.pins.cmd_a s.pins.cmd_b).wait := Nat.le_of_lt_succ hj
    have hrun := run_of_wait (s := s.acceptCommand s.pins.cmd_op s.pins.cmd_a s.pins.cmd_b) rfl hreset hplan hwait 0
    rw [Nat.zero_add] at hrun
    exact ⟨_, (run_of_offer hphase hreset hoffer hplan j).trans hrun, rfl, response_of_not_done (by simp)⟩

/-- Settles O23: both transactions end with the response of the one command word. -/
theorem sameCommandSameResponse : Obligations.SameCommandSameResponse := by
  intro s t hs ht hsplan htplan hsreset htreset hsoffer htoffer hop ha hb
  obtain ⟨e, r, hanswer⟩ := execute_eq_answer (commandWord s.pins.cmd_op s.pins.cmd_a s.pins.cmd_b)
  have hanswer' := hanswer
  rw [hop, ha, hb] at hanswer'
  refine ⟨_, _, run_of_transaction hs hsreset hsoffer hsplan hanswer,
    run_of_transaction ht htreset htoffer htplan hanswer', ?_, ?_⟩
  · rw [s.response_transacted hsreset, Option.isSome_some]
  · rw [s.response_transacted hsreset, t.response_transacted htreset]

end Sys2Proof.Machine
end

section
/-! SUPPORT. Which error the rule of each command raises, command by command (60_exceptions.md R242). -/

namespace Sys2Proof.Machine

open Sys2Proof.Config

/-! ### The rules that raise -/

@[simp] theorem err_ite_raise (c : Prop) [Decidable c] (e : ErrorKind) (v : Int) :
    (if c then Result.raise e else Result.value v).err = if c then e.code else 0 := by
  split <;> rfl

theorem divRaw_err (a b : Int) : (divRaw a b).err = if b = 0 then 1 else 0 := err_ite_raise _ _ _

theorem modRaw_err (a b : Int) : (modRaw a b).err = if b = 0 then 1 else 0 := err_ite_raise _ _ _

theorem acosRaw_err (a : Int) : (acosRaw a).err = if a < -2 ^ 32 ∨ 2 ^ 32 < a then 2 else 0 := err_ite_raise _ _ _

/-- Of the rows of R92 only the NaN raises. -/
theorem f64ToRaw_err (f : F64) : (f64ToRaw f).err = if f.E = 2047 ∧ f.M ≠ 0 then 2 else 0 := by
  unfold f64ToRaw
  split_ifs <;> rfl

/-- Of the rows of R170 the second and the third raise. -/
theorem powRaw_err (a b : Int) :
    (powRaw a b).err = if a = 0 ∧ b < 0 then 1 else if a < 0 ∧ b ≠ 0 then 2 else 0 := by
  by_cases hb : b = 0
  · rw [hb, powRaw_exponent_zero]
    simp
  rcases lt_trichotomy a 0 with ha | rfl | ha
  · rw [powRaw_of_neg ha hb]
    simp [ha, hb, ha.ne]
  · rcases lt_or_gt_of_ne hb with hneg | hpos
    · rw [powRaw_zero_of_neg hneg]
      simp [hneg]
    · rw [powRaw_zero_of_pos hpos]
      simp [hpos.le]
  · rw [powRaw_of_pos ha hb]
    simp [ha.ne', ha.le]

/-! ### Every command -/

/-- The error code after a command is that of the result its rule ends with. -/
theorem err_of_exec {i : Instr} {s t : State} {r : Result} (harm : exec i s = finish r s) (h : exec i s = .next t) :
    t.err_q = r.err := by
  rw [harm, finish_eq] at h
  obtain rfl := Host.Outcome.next.inj h
  rfl

/-- COS answers the zero word exactly where its raw result is 0, for the result fits a word. -/
theorem exec_cos_eq_zero_iff (a b : Word) (s : State) :
    exec (.cos a b) s = .next { s with phase := .done, err_q := 0, res_q := 0 } ↔ cosRaw a.toInt = 0 := by
  obtain ⟨y, hcos, hy⟩ := exec_of_finish_fits (i := .cos a b) (s := s) rfl (natAbs_sinCore_lutPrecise_lt _)
  have hzero : cosRaw a.toInt = 0 ↔ y = 0 := by
    rw [← BitVec.toInt_inj, hy]
    rfl
  rw [hcos, hzero]
  simp

/-- A pattern is a NaN when its exponent field is all ones and its fraction field is not zero (R92). -/
theorem f64Operand_nan_iff (a : Word) :
    (f64Operand a).E = 2047 ∧ (f64Operand a).M ≠ 0 ↔ a.extractLsb' 52 11 = 2047#11 ∧ a.extractLsb' 0 52 ≠ 0 := by
  rw [← BitVec.toNat_inj, ne_eq (a.extractLsb' 0 52), ← BitVec.toNat_inj]
  rfl

theorem toInt_eq_zero_iff (w : Word) : w.toInt = 0 ↔ w = 0 := by
  rw [← BitVec.toInt_inj]
  rfl

/-- A command that raises DIV_BY_ZERO on a condition raises nothing else. -/
theorem causes_of_divByZero {c d : Prop} [Decidable c] {e : ErrCode} (herr : e = if c then 1 else 0) (hc : c ↔ d) :
    (e = 1 ↔ d) ∧ (e = 2 ↔ False) ∧ e ≠ 3 := by
  rw [herr, ← hc]
  split <;> simp_all

/-- A command that raises DOMAIN on a condition raises nothing else. -/
theorem causes_of_domain {c d : Prop} [Decidable c] {e : ErrCode} (herr : e = if c then 2 else 0) (hc : c ↔ d) :
    (e = 1 ↔ False) ∧ (e = 2 ↔ d) ∧ e ≠ 3 := by
  rw [herr, ← hc]
  split <;> simp_all

/-- Settles O14: nine commands end with a result that can be an error, every other one with a value. POW has both
errors, on conditions that exclude each other. -/
theorem errorCausesAreExactlyTheListed : Obligations.ErrorCausesAreExactlyTheListed := by
  intro i s t hnext
  cases i with
  | div a b => exact causes_of_divByZero ((err_of_exec rfl hnext).trans (divRaw_err _ _)) (toInt_eq_zero_iff b)
  | mod a b => exact causes_of_divByZero ((err_of_exec rfl hnext).trans (modRaw_err _ _)) (toInt_eq_zero_iff b)
  | tan a b =>
    exact causes_of_divByZero ((err_of_exec rfl hnext).trans (divRaw_err _ _)) (exec_cos_eq_zero_iff a 0 s).symm
  | sqrt a b => exact causes_of_domain ((err_of_exec rfl hnext).trans (err_ite_raise _ _ _)) .rfl
  | log2 a b => exact causes_of_domain ((err_of_exec rfl hnext).trans (err_ite_raise _ _ _)) .rfl
  | ln a b => exact causes_of_domain ((err_of_exec rfl hnext).trans (err_ite_raise _ _ _)) .rfl
  | acos a b => exact causes_of_domain ((err_of_exec rfl hnext).trans (acosRaw_err _)) .rfl
  | fromf64 a b => exact causes_of_domain ((err_of_exec rfl hnext).trans (f64ToRaw_err _)) (f64Operand_nan_iff a)
  | pow a b =>
    have herr := (err_of_exec rfl hnext).trans (powRaw_err a.toInt b.toInt)
    simp only [ne_eq, toInt_eq_zero_iff] at herr
    by_cases hzero : a = 0 ∧ b.toInt < 0
    · obtain ⟨rfl, hb⟩ := hzero
      simp [herr, hb]
    · rw [if_neg hzero] at herr
      obtain ⟨hone, htwo, hthree⟩ := causes_of_domain herr .rfl
      exact ⟨hone.trans (iff_of_false id hzero), htwo, hthree⟩
  | _ =>
    have herr := err_of_exec rfl hnext
    have hok : t.err_q = 0 := herr
    simp [hok]

end Sys2Proof.Machine
end

section
/-! SUPPORT. Round trips of the conversions: which bits come back from the integer field, and that a raw value of at
most 53 bits is exact as a binary64 pattern (41_conversion.md R90 to R93). -/

namespace Sys2Proof.Machine

open Sys2Proof.Config

/-! ### Integers -/

/-- The integer field of a word put together from two halves is the upper half. -/
theorem integerField_append (x y : BitVec 32) : (x ++ y).extractLsb' 32 32 = x :=
  BitVec.extractLsb'_append_eq_left

/-- Copying the sign above a half word keeps the half word in the low bits. -/
theorem lowHalf_signExtend (x : BitVec 32) : (x.signExtend 64).extractLsb' 0 32 = x := by
  ext i hi
  rw [BitVec.getElem_extractLsb', zero_add, BitVec.getLsbD_eq_getElem (by omega), BitVec.getElem_signExtend, dif_pos hi]

/-- Settles O27: FROMINT moves the low half into the integer field, from which TOINT reads it back; TOINT then
FROMINT moves the integer field back over a cleared fraction, which is FLOOR. -/
theorem integerRoundTrips : Obligations.IntegerRoundTrips := by
  intro n b c s
  have htoint := toIntSignExtendsTheIntegerField (n.extractLsb' 0 32 ++ 0#32) c s
  have hfromint := fromIntKeepsTheLowBits ((n.extractLsb' 32 32).signExtend 64) c s
  rw [integerField_append] at htoint
  rw [lowHalf_signExtend] at hfromint
  exact ⟨_, _, _, fromIntKeepsTheLowBits n b s, htoint, toIntSignExtendsTheIntegerField n b s, hfromint,
    exec_of_finish_value rfl (u64_floorRaw n)⟩

/-! ### Binary64 -/

/-- A multiple of the step is its own nearest multiple. -/
theorem NearestEven.eq_of_mul {q n : Int} {k : Nat} (h : NearestEven q (n * 2 ^ k) k) : q = n :=
  le_antisymm (h.le_of_le_mul le_rfl) (h.le_of_mul_le le_rfl)

/-- A magnitude of at most 53 bits is its significand at its exponent, exactly. -/
theorem f64Magnitude_of_significand {s : Bool} {m : Nat} (hm : m ≠ 0) (hp : msb m ≤ 52) :
    f64Magnitude { s := s, E := msb m + 991, M := f64Significand m - 2 ^ 52 } = m := by
  obtain ⟨hlow, -⟩ := f64Significand_bounds hm
  have hsig : (2 : Int) ^ 52 + (f64Significand m - 2 ^ 52 : Nat) = m * 2 ^ (52 - msb m) := by
    rw [Nat.cast_sub hlow, f64Significand_exact hp]
    push_cast
    ring
  rcases hp.lt_or_eq with hlt | heq
  · have hnear := f64Magnitude_nearest (f := ⟨s, msb m + 991, f64Significand m - 2 ^ 52⟩) (by dsimp only; omega)
    dsimp only at hnear
    rw [hsig, show 1043 - (msb m + 991) = 52 - msb m by omega] at hnear
    exact hnear.eq_of_mul
  · rw [f64Magnitude_exact (by dsimp only; omega)]
    dsimp only
    rw [hsig, heq]
    ring

theorem f64Significand_lt {m : Nat} (hp : msb m ≤ 52) : f64Significand m < 2 ^ 53 := by
  have h := Nat.mul_lt_mul_of_pos_right (lt_two_pow_msb_succ m) (Nat.two_pow_pos (52 - msb m))
  rwa [← pow_add, show msb m + 1 + (52 - msb m) = 53 by omega, ← f64Significand_exact hp] at h

/-- FROMF64's rule gives back a raw value of at most 53 bits from its pattern: the significand has room for all its
bits, and `2^53` itself carries out and is a power of two. -/
theorem f64ToRaw_rawToF64 {v : Int} (hv : v.natAbs ≤ 2 ^ 53) :
    f64ToRaw (f64Operand (rawToF64 v)) = .value v := by
  rcases eq_or_ne v 0 with rfl | hne
  · decide
  have hm : v.natAbs ≠ 0 := Int.natAbs_ne_zero.mpr hne
  rcases hv.lt_or_eq with hlt | htop
  · have hp : msb v.natAbs ≤ 52 := Nat.le_of_lt_succ ((Nat.log2_lt hm).mpr hlt)
    have hq := f64Significand_lt hp
    rw [rawToF64_of_no_carry hne hq, f64Operand_f64Result (by dsimp only; omega) (by dsimp only; omega),
      f64ToRaw_normal (by dsimp only; omega) (by dsimp only; omega), f64Magnitude_of_significand hm hp]
    have hsigned : (if decide (v < 0) = true then -(v.natAbs : Int) else v.natAbs) = v := by
      simp only [decide_eq_true_eq]
      split <;> omega
    rw [hsigned, sat_eq_clamp]
    exact congrArg _ (clampRaw_eq_self (by omega) (by omega))
  · obtain rfl | rfl : v = 2 ^ 53 ∨ v = -2 ^ 53 := by omega
    · decide
    · decide

/-- Settles O30: the rule gives back the value, and its word is the operand. -/
theorem smallValuesSurviveTheF64RoundTrip : Obligations.SmallValuesSurviveTheF64RoundTrip := by
  intro a b c s ha
  have hback : exec (.fromf64 (rawToF64 a.toInt) c) s = finish (.value a.toInt) s :=
    congrArg (finish · s) (f64ToRaw_rawToF64 ha)
  exact ⟨_, rfl, exec_of_finish_value hback (u64_s64 a)⟩

end Sys2Proof.Machine
end

section
/-! SUPPORT. Identities of the arithmetic core and the order of the three roundings to an integer value: what each
rounding does to the signed value, and that it keeps the order of two values (42_arithmetic.md R119,
43_rounding_sign.md R146). -/

namespace Sys2Proof.Machine

open Sys2Proof.Config

/-! ### Arithmetic (R119) -/

/-- The value of a word needs no saturation. -/
theorem sat_toInt (w : Word) : sat w.toInt = w.toInt :=
  (sat_eq_clamp _).trans (clampRaw_eq_self (s64_lower w) (s64_upper w))

theorem u64_sat_toInt (w : Word) : u64 (sat w.toInt) = w := by
  rw [sat_toInt]
  exact u64_s64 w

/-- The multiplier undoes the scale of a factor: a multiple of `2^32` loses nothing in the rounding. -/
theorem mulRaw_eq_sat {a b v : Int} (h : a * b = v * 2 ^ 32) : mulRaw a b = sat v := by
  have hnear := nearestEven_rne (a * b) (k := 32) (by omega)
  rw [h] at hnear
  rw [mulRaw, h, hnear.eq_of_mul]

theorem divRaw_of_ne_zero {a b : Int} (hb : b ≠ 0) : divRaw a b = .value (sat ((a * 2 ^ 32).tdiv b)) := by
  rw [divRaw, if_neg hb, tdiv_eq, shl_eq_mul]

/-- Negation is exact on every word but the smallest. -/
theorem sat_neg_toInt {b : Word} (hb : b ≠ 0x8000000000000000) : sat (-b.toInt) = -b.toInt := by
  have hlow := lt_toInt_of_ne_min hb
  have hhigh : b.toInt ≤ 2 ^ 63 - 1 := s64_upper b
  exact (sat_eq_clamp _).trans (clampRaw_eq_self (by omega) (by omega))

/-- Settles O36, identity by identity: each reduces the exact result to a value whose word is known. -/
theorem arithmeticIdentitiesHold : Obligations.ArithmeticIdentitiesHold := by
  intro a b s ok
  have hzero : (0 : Word).toInt = 0 := rfl
  have hone : (0x100000000 : Word).toInt = 2 ^ 32 := by decide
  have hone_ne : (2 ^ 32 : Int) ≠ 0 := by decide
  have hadd (x y : Word) : exec (.add x y) s = finish (.value (sat (x.toInt + y.toInt))) s := rfl
  have hsub (x y : Word) : exec (.sub x y) s = finish (.value (sat (x.toInt - y.toInt))) s := rfl
  have hdiv (x y : Word) : exec (.div x y) s = finish (divRaw x.toInt y.toInt) s := rfl
  have hmod (x y : Word) : exec (.mod x y) s = finish (modRaw x.toInt y.toInt) s := rfl
  refine ⟨?addZero, ?subZero, ?subSelf, ?mulOne, ?mulZero, ?divOne, fun hb => ?zeroDiv, fun hb => ?zeroMod, ?modOne,
    fun ha => ?divSelf, ?addComm, ?mulComm, fun hb => ?subNeg⟩
  case addZero => exact exec_of_finish_value (hadd a 0) (by rw [hzero, add_zero, u64_sat_toInt])
  case subZero => exact exec_of_finish_value (hsub a 0) (by rw [hzero, sub_zero, u64_sat_toInt])
  case subSelf => exact exec_of_finish_value (hsub a a) (by rw [sub_self]; rfl)
  case mulOne => exact exec_of_finish_value (exec_mul_eq a _ s) (by rw [hone, mulRaw_eq_sat rfl, u64_sat_toInt])
  case mulZero =>
    refine exec_of_finish_value (exec_mul_eq a 0 s) ?_
    rw [mulRaw_eq_sat (v := 0) (by rw [hzero, mul_zero, zero_mul])]
    rfl
  case divOne =>
    refine exec_of_finish_value ?_ (u64_sat_toInt a)
    rw [hdiv, hone, divRaw_of_ne_zero hone_ne, Int.mul_tdiv_cancel _ hone_ne]
  case zeroDiv =>
    refine exec_of_finish_value (v := sat 0) ?_ rfl
    rw [hdiv, divRaw_of_ne_zero (toInt_ne_zero hb), hzero, zero_mul, Int.zero_tdiv]
  case zeroMod =>
    refine exec_of_finish_value (v := 0) ?_ rfl
    rw [hmod, modRaw_of_ne_zero (toInt_ne_zero hb), hzero, Int.zero_tmod]
  case modOne =>
    have hexec := hmod a 0x100000000
    rw [hone, modRaw_of_ne_zero hone_ne, ← hone] at hexec
    refine ⟨_, exec_of_finish_value hexec rfl, ?_⟩
    rw [toInt_u64_tmod _ (by decide), hone, Int.tmod_def, mul_comm]
  case divSelf =>
    refine exec_of_finish_value (v := sat (2 ^ 32)) ?_ rfl
    rw [hdiv, divRaw_of_ne_zero (toInt_ne_zero ha), Int.mul_tdiv_cancel_left _ (toInt_ne_zero ha)]
  case addComm => rw [hadd, hadd, add_comm]
  case mulComm => rw [exec_mul_eq, exec_mul_eq, mulRaw, mulRaw, mul_comm]
  case subNeg =>
    refine ⟨u64 (sat (-b.toInt)), exec_of_finish_value rfl rfl, ?_⟩
    rw [hsub, hadd, toInt_u64_sat, sat_neg_toInt hb, sub_eq_add_neg]

/-! ### The roundings as functions of the operand -/

/-- The result word of FLOOR (R143). -/
def floorWord (a : Word) : Word := u64 (floorRaw a.toInt)

/-- The result word of CEIL (R144). -/
def ceilWord (a : Word) : Word :=
  u64 (if fracField a = 0 then a.toInt else sat (floorRaw a.toInt + ONE))

/-- The result word of ROUND (R145). -/
def roundWord (a : Word) : Word := u64 (sat (rne a.toInt 32 * 2 ^ 32))

/-- The result word of NEG (R115). -/
def negWord (a : Word) : Word := u64 (sat (-a.toInt))

theorem fracField_eq_zero_iff (a : Word) : fracField a = 0 ↔ a.toInt % 2 ^ 32 = 0 := by
  rw [← fracField_eq_emod, Int.natCast_eq_zero]

theorem fraction_eq_zero_iff (a : Word) : a.extractLsb' 0 32 = 0#32 ↔ a.toInt % 2 ^ 32 = 0 := by
  rw [← fracField_eq_zero_iff, ← BitVec.toNat_inj]
  rfl

theorem toInt_floorWord (a : Word) : (floorWord a).toInt = a.toInt / 2 ^ 32 * 2 ^ 32 := by
  rw [floorWord, ← sat_floorRaw, toInt_u64_sat, sat_floorRaw, floorRaw_eq]

/-- CEIL is the next integer value at or above the operand, where there is one. -/
theorem toInt_ceilWord (a : Word) :
    (ceilWord a).toInt = min (2 ^ 63 - 1) (-(-a.toInt / 2 ^ 32) * 2 ^ 32) := by
  have hlow : -2 ^ 63 ≤ a.toInt := s64_lower a
  have hhigh : a.toInt ≤ 2 ^ 63 - 1 := s64_upper a
  rw [ceilWord, floorRaw_add_ONE]
  split_ifs with hfrac <;> rw [fracField_eq_zero_iff] at hfrac
  · rw [← sat_toInt a, toInt_u64_sat, sat_toInt]
    omega
  · rw [toInt_u64_sat, sat_eq_clamp]
    omega

/-- ROUND is an integer value within a half of the operand, but for the saturation. -/
theorem rne_32_bounds (v : Int) : v - 2 ^ 31 ≤ rne v 32 * 2 ^ 32 ∧ rne v 32 * 2 ^ 32 ≤ v + 2 ^ 31 := by
  obtain ⟨hnear, -⟩ := nearestEven_rne v (k := 32) (by omega)
  have habs := abs_le.mp (show |rne v 32 * 2 ^ 32 - v| ≤ 2 ^ 31 by omega)
  omega

theorem toInt_roundWord (a : Word) : (roundWord a).toInt = min (2 ^ 63 - 1) (rne a.toInt 32 * 2 ^ 32) := by
  have hlow : -2 ^ 63 ≤ a.toInt := s64_lower a
  have hnear := rne_32_bounds a.toInt
  rw [roundWord, toInt_u64_sat, sat_eq_clamp]
  omega

theorem toInt_negWord {a : Word} (ha : a ≠ 0x8000000000000000) : (negWord a).toInt = -a.toInt := by
  rw [negWord, toInt_u64_sat, sat_neg_toInt ha]

/-! ### The order (R146) -/

/-- Rounding to the nearest integer keeps the order: two values that crossed would be the same tie, whose two
neighbours are not both even. -/
theorem NearestEven.mono {q q' v v' : Int} {k : Nat} (h : NearestEven q v k) (h' : NearestEven q' v' k)
    (hv : v ≤ v') : q ≤ q' := by
  obtain ⟨hnear, htie⟩ := h
  obtain ⟨hnear', htie'⟩ := h'
  have hp : (0 : Int) < 2 ^ k := by positivity
  have hup := le_abs_self (q * 2 ^ k - v)
  have hdown := neg_le_abs (q' * 2 ^ k - v')
  by_contra hcross
  have hgap : (q' + 1) * 2 ^ k ≤ q * 2 ^ k := mul_le_mul_of_nonneg_right (by omega) hp.le
  have hstep : q = q' + 1 := by
    by_contra hne
    have : (q' + 2) * 2 ^ k ≤ q * 2 ^ k := mul_le_mul_of_nonneg_right (by omega) hp.le
    linarith
  have heven := htie (by linarith)
  have heven' := htie' (by linarith)
  omega

theorem roundWord_mono {a b : Word} (hab : a.toInt ≤ b.toInt) : (roundWord a).toInt ≤ (roundWord b).toInt := by
  have hk := (nearestEven_rne a.toInt (k := 32) (by omega)).mono (nearestEven_rne b.toInt (by omega)) hab
  rw [toInt_roundWord, toInt_roundWord]
  omega

/-- ROUND is one of the other two: the only integer values within a half of the operand are its neighbours. -/
theorem roundWord_eq_or (a : Word) : roundWord a = floorWord a ∨ roundWord a = ceilWord a := by
  have hnear := rne_32_bounds a.toInt
  rw [← BitVec.toInt_inj, ← BitVec.toInt_inj, toInt_roundWord, toInt_floorWord, toInt_ceilWord]
  have hhigh : a.toInt ≤ 2 ^ 63 - 1 := s64_upper a
  omega

theorem floorWord_idempotent (a : Word) : floorWord (floorWord a) = floorWord a := by
  rw [← BitVec.toInt_inj, toInt_floorWord, toInt_floorWord]
  omega

theorem ceilWord_idempotent (a : Word) : ceilWord (ceilWord a) = ceilWord a := by
  rw [← BitVec.toInt_inj, toInt_ceilWord, toInt_ceilWord]
  omega

theorem roundWord_idempotent (a : Word) : roundWord (roundWord a) = roundWord a := by
  have hnear := rne_32_bounds (roundWord a).toInt
  rw [← BitVec.toInt_inj, toInt_roundWord (roundWord a)]
  rw [toInt_roundWord a] at hnear ⊢
  omega

/-- CEIL mirrors FLOOR, below the band in which CEIL saturates. -/
theorem ceilWord_eq_neg_floor_neg {a : Word} (ha : a ≠ 0x8000000000000000) (hband : a.toInt ≤ 0x7FFFFFFF00000000) :
    ceilWord a = negWord (floorWord (negWord a)) := by
  have hlow := lt_toInt_of_ne_min ha
  rw [← BitVec.toInt_inj, toInt_ceilWord, negWord, toInt_u64_sat, sat_eq_clamp, toInt_floorWord, toInt_negWord ha]
  omega

/-- Settles O39, property by property, on the signed values of the three result words. -/
theorem roundingBracketsTheOperand : Obligations.RoundingBracketsTheOperand := by
  intro s
  refine ⟨floorWord, ceilWord, roundWord, negWord, fun _ _ => rfl, fun _ _ => rfl,
    fun a b => exec_of_finish_value (exec_round_eq a b s) rfl, fun _ _ => rfl, fun a => ?bracket,
    fun a hfrac => ?integer, fun a hfrac hband => ?apart, fun a ha hband => ceilWord_eq_neg_floor_neg ha hband,
    fun a hband => ?band, fun a => ⟨floorWord_idempotent a, ceilWord_idempotent a, roundWord_idempotent a⟩,
    fun a b hab => ⟨?_, ?_, roundWord_mono hab⟩⟩
  all_goals
    have hhigh : a.toInt ≤ 2 ^ 63 - 1 := s64_upper a
  case bracket =>
    have hround := roundWord_eq_or a
    rw [← BitVec.toInt_inj, ← BitVec.toInt_inj (x := roundWord a) (y := ceilWord a)] at hround
    rw [← BitVec.toInt_inj, ← BitVec.toInt_inj (x := roundWord a) (y := ceilWord a)]
    rw [toInt_floorWord, toInt_ceilWord] at hround ⊢
    omega
  case integer =>
    rw [fraction_eq_zero_iff] at hfrac
    rw [← BitVec.toInt_inj, toInt_ceilWord, toInt_floorWord]
    omega
  case apart =>
    rw [ne_eq, fraction_eq_zero_iff] at hfrac
    rw [toInt_ceilWord, toInt_floorWord]
    omega
  case band =>
    have hmax : (0x7FFFFFFFFFFFFFFF : Word).toInt = 2 ^ 63 - 1 := by decide
    rw [← BitVec.toInt_inj, hmax, toInt_ceilWord, toInt_floorWord]
    omega
  · rw [toInt_floorWord, toInt_floorWord]
    omega
  · rw [toInt_ceilWord, toInt_ceilWord]
    omega

end Sys2Proof.Machine
end

section
/-! SUPPORT. The square root, the logarithm and the power of two at their exact points: the root keeps the order, the
logarithm of a power of two has no fraction, the series of a zero fraction is its first term
(44_sqrt_log_pow.md R161 to R163, R167). -/

namespace Sys2Proof.Machine

open Sys2Proof.Config

/-! ### SQRT (R161, R162) -/

/-- Settles O40, by the invariant of the 48 digits. -/
theorem digitByDigitRootIsTheIntegerRoot : Obligations.DigitByDigitRootIsTheIntegerRoot :=
  fun _ hr => isqrt_spec hr

theorem isqrt_mono {r r' : Nat} (hr' : r' < 2 ^ 96) (h : r ≤ r') : isqrt r ≤ isqrt r' := by
  obtain ⟨hroot, -⟩ := isqrt_spec (h.trans_lt hr')
  obtain ⟨-, hnext⟩ := isqrt_spec hr'
  exact Nat.le_of_lt_succ (Nat.mul_self_lt_mul_self_iff.mp ((hroot.trans h).trans_lt hnext))

/-- The root of an operand at doubled precision fits a word. -/
theorem toInt_u64_isqrt {r : Nat} (hr : r < 2 ^ 96) : (u64 (isqrt r)).toInt = isqrt r := by
  have := isqrt_lt hr
  exact toInt_u64 _ (by omega) (by omega)

/-- Settles O42: the order of the operands is that of the radicands, and the integer root keeps it. -/
theorem sqrtIsMonotone : Obligations.SqrtIsMonotone := by
  intro a a' b s ha haa'
  have ha' := ha.trans haa'
  have hradicand (w : Word) : w.toNat * 2 ^ 32 < 2 ^ 96 := by
    have := w.isLt
    omega
  have hle : a.toNat * 2 ^ 32 ≤ a'.toNat * 2 ^ 32 := by
    rw [← toNat_toInt_of_nonneg ha, ← toNat_toInt_of_nonneg ha']
    exact Nat.mul_le_mul_right _ (Int.toNat_le_toNat haa')
  refine ⟨_, _, exec_of_finish_value (exec_sqrt_of_nonneg b s ha) rfl,
    exec_of_finish_value (exec_sqrt_of_nonneg b s ha') rfl, ?_⟩
  rw [toInt_u64_isqrt (hradicand a), toInt_u64_isqrt (hradicand a')]
  exact_mod_cast isqrt_mono (hradicand a') hle

/-! ### LOG2 (R163) -/

theorem msb_eq_of_bounds {m p : Nat} (hlow : 2 ^ p ≤ m) (hhigh : m < 2 ^ (p + 1)) : msb m = p := by
  have hm : m ≠ 0 := fun h => by simp [h] at hlow
  exact (Nat.log2_eq_iff hm).mpr ⟨hlow, hhigh⟩

/-- The mantissa 1 squares to itself and carries no bit, so the fraction of its logarithm is zero. -/
theorem log2Loop_of_one (n : Nat) (y : Int) : log2Loop n (2 ^ 62) y = y := by
  have hsquare : 2 ^ 62 * 2 ^ 62 / 2 ^ 62 < 2 ^ 63 := by decide
  obtain ⟨hbit, hmantissa⟩ := log2_no_carry hsquare
  induction n with
  | zero => rfl
  | succ n ih =>
    rw [log2Loop_succ, hbit, hmantissa, Nat.cast_zero, zero_mul, add_zero]
    exact ih

theorem log2Raw_two_pow {p : Nat} (hp : p ≤ 62) : log2Raw (2 ^ p) = ((p : Int) - 32) * 2 ^ 32 := by
  have hmsb : msb (2 ^ p) = p := Nat.log2_two_pow
  rw [log2Raw, hmsb, ← pow_add, Nat.add_sub_cancel' hp, log2Loop_of_one]

/-- Settles O44: the cell is that of the highest bit, and a power of two has the mantissa 1. -/
theorem logTwoIsExactOnPowersOfTwo : Obligations.LogTwoIsExactOnPowersOfTwo := by
  intro a b p s hpos hlow hhigh
  have hnat : (a.toNat : Int) = a.toInt := by
    rw [← toNat_toInt_of_nonneg hpos.le, Int.toNat_of_nonneg hpos.le]
  have hmsb : msb a.toNat = p :=
    msb_eq_of_bounds (by exact_mod_cast hnat ▸ hlow) (by exact_mod_cast hnat ▸ hhigh)
  obtain ⟨hcell, hcell'⟩ := log2Raw_bounds a.toNat
  refine ⟨_, exec_of_finish_value (exec_log2_of_pos b s hpos) rfl, ?_⟩
  rw [toInt_u64_log2Raw hpos.le]
  rw [hmsb] at hcell hcell'
  refine ⟨hcell, hcell', fun hpower => ?_⟩
  have ha : a.toNat = 2 ^ p := by exact_mod_cast hnat.trans hpower
  have hp : p < 63 := (Nat.pow_lt_pow_iff_right one_lt_two).mp (by have : a.toInt < 2 ^ 63 := BitVec.toInt_lt; omega)
  rw [ha, log2Raw_two_pow (by omega)]

/-! ### POW2 (R167) -/

/-- With a zero fraction every term after the first is zero. -/
theorem pow2Series_zero : pow2Series 0 = 2 ^ 62 := by decide

/-- Settles O47: the series is `2^62` and the shift leaves the power of two. -/
theorem powTwoIsExactOnIntegers : Obligations.PowTwoIsExactOnIntegers := by
  intro n b s hlow hhigh
  have hvalue : (BitVec.ofInt 64 (n * 2 ^ 32)).toInt = n * 2 ^ 32 := toInt_u64 _ (by omega) (by omega)
  have hfloor : (BitVec.ofInt 64 (n * 2 ^ 32)).toInt / 2 ^ 32 = n := by omega
  have hfrac : fracField (BitVec.ofInt 64 (n * 2 ^ 32)) = 0 := by
    rw [fracField_eq_zero_iff]
    omega
  refine exec_of_finish_value (exec_pow2_eq _ b s) ?_
  rw [pow2Raw_of_mid (by omega) (by omega), hfrac, hfloor, pow2Series_zero,
    Nat.pow_div (by omega) (by decide), show 62 - (30 - n).toNat = (n + 32).toNat by omega]
  exact BitVec.ofInt_natCast _ _

end Sys2Proof.Machine
end

section
/-! SUPPORT. The sine table against the real sine: half of pi to 98 bits by Machin's formula, the truncated terms of
the table's generator against those of the Taylor series, and the rounding of each entry
(45_trigonometry.md R190 to R192). -/

namespace Sys2Proof.Machine

open Sys2Proof.Config

/-! ### Alternating series, and pi -/

/-- A partial sum of an alternating series with decreasing terms misses the limit by at most the next term. -/
theorem abs_sub_alternating_sum_le {f : ℕ → ℝ} {l : ℝ} (hf : Antitone f) (hpos : ∀ n, 0 ≤ f n)
    (hsum : HasSum (fun n => (-1) ^ n * f n) l) (n : ℕ) :
    |l - ∑ i ∈ Finset.range n, (-1) ^ i * f i| ≤ f n := by
  have hsummable : Summable f := by
    simpa [abs_mul, abs_of_nonneg (hpos _)] using hsum.summable.abs
  rw [← hsum.tsum_eq]
  exact alternating_series_error_bound f hf hsummable n

/-- A partial sum of the arctangent's series misses the arctangent by at most the next term. -/
theorem abs_arctan_sub_sum_le {x : ℝ} (h0 : 0 ≤ x) (h1 : x < 1) (n : ℕ) :
    |Real.arctan x - ∑ i ∈ Finset.range n, (-1) ^ i * (x ^ (2 * i + 1) / (2 * i + 1))| ≤
      x ^ (2 * n + 1) / (2 * n + 1) := by
  refine abs_sub_alternating_sum_le (f := fun i : ℕ => x ^ (2 * i + 1) / (2 * i + 1)) ?_ (fun i => by positivity) ?_ n
  · refine antitone_nat_of_succ_le fun i => ?_
    have hpow : x ^ (2 * (i + 1) + 1) ≤ x ^ (2 * i + 1) := pow_le_pow_of_le_one h0 h1.le (by omega)
    push_cast
    gcongr
    linarith
  · convert Real.hasSum_arctan (x := x) (by rwa [Real.norm_of_nonneg h0]) using 2 with i
    push_cast
    ring

/-- The constant of R192 is pi with 128 fraction bits; 98 of them are enough for the table. -/
theorem abs_pi_q128_sub_pi_le : |(PI_Q128 : ℝ) / 2 ^ 128 - Real.pi| ≤ 1 / 2 ^ 98 := by
  have hmachin := Real.four_mul_arctan_inv_5_sub_arctan_inv_239
  have hfive := abs_le.mp (abs_arctan_sub_sum_le (x := (5 : ℝ)⁻¹) (by norm_num) (by norm_num) 22)
  have htail := abs_le.mp (abs_arctan_sub_sum_le (x := (239 : ℝ)⁻¹) (by norm_num) (by norm_num) 7)
  norm_num [Finset.sum_range_succ] at hfive htail
  norm_num [PI_Q128, abs_le]
  constructor <;> linarith

/-! ### The Taylor series of the sine -/

/-- The magnitude of the `k`-th term of the sine's Taylor series. -/
noncomputable def sineTerm (x : ℝ) (k : ℕ) : ℝ := x ^ (2 * k + 1) / (2 * k + 1).factorial

theorem sineTerm_nonneg {x : ℝ} (hx : 0 ≤ x) (k : ℕ) : 0 ≤ sineTerm x k := by
  unfold sineTerm
  positivity

theorem sineTerm_succ (x : ℝ) (k : ℕ) :
    sineTerm x (k + 1) = sineTerm x k * x ^ 2 / ((2 * (k + 1)) * (2 * (k + 1) + 1)) := by
  have hfactorial : (2 * (k + 1) + 1).factorial = (2 * (k + 1) + 1) * ((2 * (k + 1)) * (2 * k + 1).factorial) := rfl
  rw [sineTerm, sineTerm, hfactorial]
  push_cast
  field_simp
  ring

/-- In the quarter period each term is at most half of the one before it. -/
theorem sineTerm_succ_le {x : ℝ} (h0 : 0 ≤ x) (hsquare : x ^ 2 ≤ 3) (k : ℕ) :
    sineTerm x (k + 1) ≤ sineTerm x k / 2 := by
  have hterm := sineTerm_nonneg h0 k
  have hk : (0 : ℝ) ≤ k := k.cast_nonneg
  rw [sineTerm_succ, div_le_div_iff₀ (by positivity) (by positivity)]
  have hdenom : (6 : ℝ) ≤ (2 * (k + 1)) * (2 * (k + 1) + 1) := by nlinarith
  nlinarith [mul_le_mul_of_nonneg_left hsquare hterm, mul_le_mul_of_nonneg_left hdenom hterm]

theorem sineTerm_le {x : ℝ} (h0 : 0 ≤ x) (hsquare : x ^ 2 ≤ 3) (k : ℕ) : sineTerm x k ≤ 2 / 2 ^ k := by
  induction k with
  | zero =>
    rw [sineTerm]
    norm_num
    nlinarith
  | succ k ih =>
    have hstep := sineTerm_succ_le h0 hsquare k
    rw [pow_succ, ← div_div]
    linarith

/-- A partial sum misses the sine by at most the next term. -/
theorem abs_sin_sub_sum_le {x : ℝ} (h0 : 0 ≤ x) (hsquare : x ^ 2 ≤ 3) (n : ℕ) :
    |Real.sin x - ∑ k ∈ Finset.range n, (-1) ^ k * sineTerm x k| ≤ 2 / 2 ^ n := by
  refine (abs_sub_alternating_sum_le ?_ (sineTerm_nonneg h0) ?_ n).trans (sineTerm_le h0 hsquare n)
  · refine antitone_nat_of_succ_le fun k => ?_
    linarith [sineTerm_succ_le h0 hsquare k, sineTerm_nonneg h0 k]
  · convert Real.hasSum_sin x using 2 with k
    rw [sineTerm]
    ring

/-! ### The generator's terms (R192) -/

/-- The terms of R192's generator: the Taylor terms with 128 fraction bits, truncated at every step. -/
def romSineTerm (th th2 : Nat) : Nat → Nat
  | 0 => th
  | k + 1 => romSineTerm th th2 k * th2 / 2 ^ 128 / (2 * (k + 1) * (2 * (k + 1) + 1))

/-- The generator subtracts the terms with an odd index and adds the others. -/
theorem add_signed_term (k : Nat) (s t : Int) : (if k % 2 = 1 then s - t else s + t) = s + (-1) ^ k * t := by
  rcases Nat.even_or_odd k with heven | hodd
  · rw [if_neg (by rw [Nat.even_iff] at heven; omega), heven.neg_one_pow, one_mul]
  · rw [if_pos (Nat.odd_iff.mp hodd), hodd.neg_one_pow, neg_one_mul, ← sub_eq_add_neg]

theorem romSineTerm_zero (th th2 : Nat) : romSineTerm th th2 0 = th := rfl

/-- The loop adds up its terms with alternating signs; once a term is zero all later ones are. -/
theorem sineSeries_eq_sum (th th2 n k : Nat) (s : Int) :
    sineSeries n th2 (romSineTerm th th2 k) s (k + 1) =
      s + ∑ j ∈ Finset.range n, (-1) ^ (k + 1 + j) * (romSineTerm th th2 (k + 1 + j) : Int) := by
  induction n generalizing k s with
  | zero => simp [sineSeries]
  | succ n ih =>
    rw [Finset.sum_range_succ', add_zero,
      Finset.sum_congr rfl fun j _ => by rw [show k + 1 + (j + 1) = k + 1 + 1 + j by omega]]
    rw [add_comm (Finset.sum _ _), ← add_assoc s, ← ih (k + 1), sineSeries]
    split
    case isTrue hzero =>
      have hstop : romSineTerm th th2 (k + 1) = 0 := by simp [romSineTerm, hzero]
      rw [hstop, sineSeries_zero]
      simp
    case isFalse hne =>
      rw [← add_signed_term]
      rfl

/-- A truncated quotient is at most one below the quotient. -/
theorem natCast_div_bounds (m d : ℕ) : ((m / d : ℕ) : ℝ) ≤ m / d ∧ (m / d : ℝ) ≤ (m / d : ℕ) + 1 := by
  refine ⟨Nat.cast_div_le, ?_⟩
  rcases Nat.eq_zero_or_pos d with rfl | hd
  · simp
  · rw [div_le_iff₀ (by exact_mod_cast hd)]
    exact_mod_cast (Nat.lt_mul_of_div_lt (Nat.lt_succ_self (m / d)) hd).le

/-- Multiplying a term `t` of the generator by the truncated square of the angle, when it stands for `y` with an
error of at most 3: the product stands for `y * x ^ 2` with an error of at most 12. -/
theorem romSineTerm_mul_bounds {th t : ℕ} {x y : ℝ} (hx : (th : ℝ) = x * 2 ^ 128) (hsquare : x ^ 2 ≤ 3) (hy0 : 0 ≤ y)
    (hy2 : y ≤ 2) (hup : (t : ℝ) ≤ y * 2 ^ 128) (hdown : y * 2 ^ 128 ≤ t + 3) :
    ((t * (th * th / 2 ^ 128) / 2 ^ 128 : ℕ) : ℝ) ≤ y * x ^ 2 * 2 ^ 128 ∧
      y * x ^ 2 * 2 ^ 128 ≤ (t * (th * th / 2 ^ 128) / 2 ^ 128 : ℕ) + 12 := by
  obtain ⟨hsq_up, hsq_down⟩ := natCast_div_bounds (th * th) (2 ^ 128)
  obtain ⟨hmul_up, hmul_down⟩ := natCast_div_bounds (t * (th * th / 2 ^ 128)) (2 ^ 128)
  generalize th * th / 2 ^ 128 = sq at *
  generalize t * sq / 2 ^ 128 = prod at *
  have hsq : ((th * th : ℕ) : ℝ) / (2 ^ 128 : ℕ) = x ^ 2 * 2 ^ 128 := by
    push_cast
    rw [hx]
    ring
  rw [hsq] at hsq_up hsq_down
  push_cast at hmul_up hmul_down
  have ht0 : (0 : ℝ) ≤ t := t.cast_nonneg
  have hsq0 : (0 : ℝ) ≤ sq := sq.cast_nonneg
  rw [le_div_iff₀ (by norm_num)] at hmul_up
  rw [div_le_iff₀ (by norm_num)] at hmul_down
  constructor
  · have hprod : (t : ℝ) * sq ≤ (y * 2 ^ 128) * (x ^ 2 * 2 ^ 128) := mul_le_mul hup hsq_up hsq0 (by positivity)
    linarith
  · have herr : (y * 2 ^ 128) * x ^ 2 ≤ (t + 3) * x ^ 2 := mul_le_mul_of_nonneg_right hdown (by positivity)
    have hround : (t : ℝ) * (x ^ 2 * 2 ^ 128) ≤ t * (sq + 1) := mul_le_mul_of_nonneg_left hsq_down ht0
    linarith

/-- The angle that stands behind a number with 128 fraction bits is not negative. -/
theorem nonneg_of_scaled {th : ℕ} {x : ℝ} (hx : (th : ℝ) = x * 2 ^ 128) : 0 ≤ x :=
  nonneg_of_mul_nonneg_left (hx ▸ th.cast_nonneg) (by norm_num)

/-- A term of the generator in terms of its angle: never above the Taylor term, and at most 3 units of the last
place below it. Each step halves the error of the term before it and adds at most one and a half. -/
theorem romSineTerm_bounds {th : Nat} {x : ℝ} (hx : (th : ℝ) = x * 2 ^ 128) (hsquare : x ^ 2 ≤ 3) (k : ℕ) :
    (romSineTerm th (th * th / 2 ^ 128) k : ℝ) ≤ sineTerm x k * 2 ^ 128 ∧
      sineTerm x k * 2 ^ 128 ≤ romSineTerm th (th * th / 2 ^ 128) k + 3 := by
  have h0 := nonneg_of_scaled hx
  induction k with
  | zero => simp [sineTerm, romSineTerm, hx]
  | succ k ih =>
    obtain ⟨hup, hdown⟩ := ih
    have hterm : sineTerm x k ≤ 2 :=
      (sineTerm_le h0 hsquare k).trans (div_le_self (by norm_num) (one_le_pow₀ (by norm_num)))
    obtain ⟨hmul_up, hmul_down⟩ := romSineTerm_mul_bounds hx hsquare (sineTerm_nonneg h0 k) hterm hup hdown
    obtain ⟨hdiv_up, hdiv_down⟩ := natCast_div_bounds
      (romSineTerm th (th * th / 2 ^ 128) k * (th * th / 2 ^ 128) / 2 ^ 128) (2 * (k + 1) * (2 * (k + 1) + 1))
    have hdenom : (6 : ℝ) ≤ (2 * (k + 1)) * (2 * (k + 1) + 1) := by
      have : (0 : ℝ) ≤ k := k.cast_nonneg
      nlinarith
    simp only [Nat.cast_mul, Nat.cast_add, Nat.cast_one, Nat.cast_ofNat] at hdiv_up hdiv_down
    rw [sineTerm_succ, div_mul_eq_mul_div, romSineTerm]
    constructor
    · refine hdiv_up.trans ?_
      gcongr
    · have hsmall : (12 : ℝ) / ((2 * (k + 1)) * (2 * (k + 1) + 1)) ≤ 2 := by
        rw [div_le_iff₀ (by linarith)]
        linarith
      calc _ ≤ (((romSineTerm th (th * th / 2 ^ 128) k * (th * th / 2 ^ 128) / 2 ^ 128 : ℕ) : ℝ) + 12) /
            ((2 * (k + 1)) * (2 * (k + 1) + 1)) := by gcongr
        _ ≤ _ := by rw [add_div]; linarith

/-- The generator's sum is the sine of its angle with 128 fraction bits, but for 394 units of the last place. -/
theorem abs_sineSeries_sub_sin_le {th : Nat} {x : ℝ} (hx : (th : ℝ) = x * 2 ^ 128) (hsquare : x ^ 2 ≤ 3) :
    |(sineSeries 130 (th * th / 2 ^ 128) th (th : Int) 1 : ℝ) - 2 ^ 128 * Real.sin x| ≤ 394 := by
  have h0 := nonneg_of_scaled hx
  have hseries : (sineSeries 130 (th * th / 2 ^ 128) th (th : Int) 1 : ℝ) =
      ∑ k ∈ Finset.range 131, (-1) ^ k * (romSineTerm th (th * th / 2 ^ 128) k : ℝ) := by
    have hsum := sineSeries_eq_sum th (th * th / 2 ^ 128) 130 0 th
    simp only [zero_add, add_comm 1, romSineTerm_zero] at hsum
    rw [Finset.sum_range_succ', add_comm (Finset.sum _ _), pow_zero, one_mul, romSineTerm_zero]
    exact_mod_cast hsum
  have htrunc : |∑ k ∈ Finset.range 131, (-1) ^ k * (romSineTerm th (th * th / 2 ^ 128) k : ℝ) -
      2 ^ 128 * ∑ k ∈ Finset.range 131, (-1) ^ k * sineTerm x k| ≤ 393 := by
    rw [Finset.mul_sum, ← Finset.sum_sub_distrib]
    refine (Finset.abs_sum_le_sum_abs _ _).trans ((Finset.sum_le_card_nsmul _ _ 3 fun k _ => ?_).trans (by norm_num))
    obtain ⟨hup, hdown⟩ := romSineTerm_bounds hx hsquare k
    rw [mul_left_comm, ← mul_sub, abs_mul, abs_neg_one_pow, one_mul, abs_le]
    constructor <;> linarith
  have htaylor := abs_le.mp (abs_sin_sub_sum_le h0 hsquare 131)
  rw [abs_le] at htrunc ⊢
  rw [hseries]
  constructor <;> linarith

/-! ### The entries (R190 to R192) -/

/-- The angle of the generator for the index `i`, with 128 fraction bits. -/
def romAngle (i : Nat) : Nat := i * PI_Q128 / 2 ^ 18

/-- The angle of the generator for the index `i` is `i * pi / 2^18`, but for the truncation and the digits of pi. -/
theorem abs_angle_sub_le {i : ℕ} (hi : i ≤ 131072) :
    |(romAngle i : ℝ) / 2 ^ 128 - i * Real.pi / 2 ^ 18| ≤ 1 / 2 ^ 128 + 1 / 2 ^ 99 := by
  obtain ⟨hup, hdown⟩ := natCast_div_bounds (i * PI_Q128) (2 ^ 18)
  rw [← romAngle] at hup hdown
  have hi' : (i : ℝ) ≤ 2 ^ 17 := by exact_mod_cast hi
  have hi0 : (0 : ℝ) ≤ i := i.cast_nonneg
  have hpi : |(i : ℝ) * (PI_Q128 / 2 ^ 128 - Real.pi)| ≤ 2 ^ 17 * (1 / 2 ^ 98) := by
    rw [abs_mul, abs_of_nonneg hi0]
    exact mul_le_mul hi' abs_pi_q128_sub_pi_le (abs_nonneg _) (by norm_num)
  push_cast at hup hdown
  rw [abs_le] at hpi ⊢
  constructor <;> linarith

/-- The angle of the generator lies in the quarter period, so its square is below 3. -/
theorem angle_sq_le {i : ℕ} (hi : i ≤ 131072) : ((romAngle i : ℝ) / 2 ^ 128) ^ 2 ≤ 3 := by
  obtain ⟨hup, -⟩ := natCast_div_bounds (i * PI_Q128) (2 ^ 18)
  rw [← romAngle] at hup
  have hpi : (PI_Q128 : ℝ) ≤ 32 / 10 * 2 ^ 128 := by norm_num [PI_Q128]
  have hprod : (i : ℝ) * PI_Q128 ≤ 2 ^ 17 * (32 / 10 * 2 ^ 128) :=
    mul_le_mul (by exact_mod_cast hi) hpi (Nat.cast_nonneg _) (by norm_num)
  have hquarter : (romAngle i : ℝ) / 2 ^ 128 ≤ 16 / 10 := by
    push_cast at hup
    rw [div_le_iff₀ (by norm_num)]
    linarith
  calc ((romAngle i : ℝ) / 2 ^ 128) ^ 2 ≤ (16 / 10) ^ 2 := by gcongr
    _ ≤ 3 := by norm_num

/-- The shift at the end of the generator rounds to the nearest integer. -/
theorem abs_asr_half_sub_le (v : Int) : |(asr (v + 2 ^ 95) 96 : ℝ) * 2 ^ 96 - v| ≤ 2 ^ 95 := by
  have hlow := Int.ediv_mul_le (v + 2 ^ 95) (show (2 : Int) ^ 96 ≠ 0 by decide)
  have hhigh := Int.lt_ediv_add_one_mul_self (v + 2 ^ 95) (show (0 : Int) < 2 ^ 96 by decide)
  rw [← asr_eq_ediv] at hlow hhigh
  have hround : |asr (v + 2 ^ 95) 96 * 2 ^ 96 - v| ≤ 2 ^ 95 := by
    rw [abs_le]
    constructor <;> linarith
  exact_mod_cast hround

theorem sinlutValue_eq (i : Nat) :
    sinlutValue i =
      asr (sineSeries 130 (romAngle i * romAngle i / 2 ^ 128) (romAngle i) (romAngle i) 1 + 2 ^ 95) 96 := rfl

/-- What the generator computes is the rounded sine, but for `2^-64`: the error of its series and of its angle. -/
theorem sinlutValue_near {i : ℕ} (hi : i ≤ 131072) :
    |(sinlutValue i : ℝ) - 2 ^ 32 * Real.sin (i * Real.pi / 2 ^ 18)| < 1 / 2 + 1 / 2 ^ 64 := by
  have hscale : (romAngle i : ℝ) = (romAngle i : ℝ) / 2 ^ 128 * 2 ^ 128 := by
    field_simp
  have hseries := abs_le.mp (abs_sineSeries_sub_sin_le hscale (angle_sq_le hi))
  have hround := abs_le.mp (abs_asr_half_sub_le
    (sineSeries 130 (romAngle i * romAngle i / 2 ^ 128) (romAngle i) (romAngle i) 1))
  have hangle := abs_le.mp ((Real.abs_sin_sub_sin_le _ _).trans (abs_angle_sub_le hi))
  rw [← sinlutValue_eq] at hround
  rw [abs_lt]
  constructor <;> linarith

/-- The generator's value is a 33-bit number, so the entry holds it, and no entry is above ONE. -/
theorem romSin_eq_and_le_one {i : ℕ} (hi : i ≤ 131072) : romSin i = sinlutValue i ∧ romSin i ≤ 2 ^ 32 := by
  obtain ⟨hlow, hhigh⟩ := abs_lt.mp (sinlutValue_near hi)
  have hi' : (i : ℝ) ≤ 2 ^ 18 := by exact_mod_cast hi.trans (by decide)
  have hsin0 : 0 ≤ Real.sin (i * Real.pi / 2 ^ 18) := by
    refine Real.sin_nonneg_of_nonneg_of_le_pi (by positivity) ?_
    rw [div_le_iff₀ (by norm_num), mul_comm]
    exact mul_le_mul_of_nonneg_left hi' Real.pi_pos.le
  have hsin1 := Real.sin_le_one (i * Real.pi / 2 ^ 18)
  have hnonneg : -1 < sinlutValue i := by
    have : (-1 : ℝ) < sinlutValue i := by linarith
    exact_mod_cast this
  have hle : sinlutValue i < 2 ^ 32 + 1 := by
    have : (sinlutValue i : ℝ) < 2 ^ 32 + 1 := by linarith
    exact_mod_cast this
  have hentry : romSin i = sinlutValue i := by
    rw [romSin, sinlut, BitVec.toNat_ofInt]
    omega
  exact ⟨hentry, by omega⟩

/-- Settles O50: the entry is the generator's value, which is the rounded sine. -/
theorem sineTableHoldsTheSine : Obligations.SineTableHoldsTheSine := by
  intro i hi
  obtain ⟨hentry, -⟩ := romSin_eq_and_le_one hi
  rw [hentry]
  exact sinlutValue_near hi

end Sys2Proof.Machine
end

section
/-! SUPPORT. The sines as functions of the angle: their range, their symmetries under negation and half a period, and
their exact points (45_trigonometry.md R194 to R201, R206, R210). -/

namespace Sys2Proof.Machine

open Sys2Proof.Config

/-! ### The tables -/

/-- Settles O49, by looking the entries up. -/
theorem romHoldsTheListedEntries : Obligations.RomHoldsTheListedEntries := by
  unfold Obligations.RomHoldsTheListedEntries
  decide

/-! ### The range (R195) -/

/-- An interpolated value lies between the two entries it was read from, so between 0 and ONE. -/
theorem InterpolatedEntry.bounds {t : Nat} {v : Int} (h : InterpolatedEntry t v) : 0 ≤ v ∧ v ≤ 2 ^ 32 := by
  obtain ⟨idx, rem, -, hrem, hidx, hvalue⟩ := h
  obtain ⟨-, hentry⟩ := romSin_eq_and_le_one hidx
  have hentry_nonneg := romSin_nonneg idx
  rcases hvalue with ⟨-, rfl⟩ | ⟨-, hidx', e, rfl, hlow, hhigh⟩
  · exact ⟨hentry_nonneg, hentry⟩
  obtain ⟨-, hnext⟩ := romSin_eq_and_le_one hidx'
  have hnext_nonneg := romSin_nonneg (idx + 1)
  generalize romSin (idx + 1) = next at *
  generalize romSin idx = entry at *
  unfold PI_OVER_2 at *
  rcases le_total entry next with hup | hdown
  · have hpart : 0 ≤ (next - entry) * rem := mul_nonneg (by omega) (by omega)
    have hpart' : (next - entry) * rem ≤ (next - entry) * 0x1921FB543 := mul_le_mul_of_nonneg_left (by omega) (by omega)
    omega
  · have hpart : (next - entry) * rem ≤ 0 := mul_nonpos_of_nonpos_of_nonneg (by omega) (by omega)
    have hpart' : (next - entry) * 0x1921FB543 ≤ (next - entry) * rem := mul_le_mul_of_nonpos_left (by omega) (by omega)
    omega

theorem CoarseEntry.bounds {t : Nat} {v : Int} (h : CoarseEntry t v) : 0 ≤ v ∧ v ≤ 2 ^ 32 := by
  obtain ⟨j, hj, rfl, -⟩ := h
  exact ⟨romSin_nonneg _, (romSin_eq_and_le_one (by omega)).2⟩

theorem SineBy.bounds {entry : Nat → Int → Prop} (hentry : ∀ {t v}, entry t v → 0 ≤ v ∧ v ≤ 2 ^ 32) {Y v : Int}
    (h : SineBy entry Y v) : -2 ^ 32 ≤ v ∧ v ≤ 2 ^ 32 := by
  obtain ⟨neg, t, w, -, hw, rfl⟩ := h
  have := hentry hw
  split <;> omega

/-- The value of the result word a command answers. -/
theorem res_of_exec {i : Instr} {s t : State} {r : Word}
    (hexec : exec i s = .next { s with phase := .done, err_q := 0, res_q := r }) (h : exec i s = .next t) :
    t.res_q = r := by
  rw [hexec] at h
  obtain rfl := Host.Outcome.next.inj h
  rfl

/-- Settles O54: each of the four is a sine by entries between 0 and ONE. -/
theorem sinesLieBetweenMinusOneAndOne : Obligations.SinesLieBetweenMinusOneAndOne := by
  intro a b s t i hi hnext
  obtain ⟨x, y, hsin, hcos, hx, hy⟩ := sinCosReduceAndInterpolate a b s
  obtain ⟨x', y', hfastsin, hfastcos, hx', hy'⟩ := fastSinCosTakeTheCoarseEntry a b s
  simp only [List.mem_cons, List.not_mem_nil, or_false] at hi
  obtain rfl | rfl | rfl | rfl := hi
  · exact res_of_exec hsin hnext ▸ hx.bounds InterpolatedEntry.bounds
  · exact res_of_exec hcos hnext ▸ hy.bounds InterpolatedEntry.bounds
  · exact res_of_exec hfastsin hnext ▸ hx'.bounds CoarseEntry.bounds
  · exact res_of_exec hfastcos hnext ▸ hy'.bounds CoarseEntry.bounds

/-! ### The symmetries (R194) -/

/-- The reduction of an angle that is not negative, from its periods, quadrants and offset. -/
theorem reduceAngle_of_parts {k q u : Nat} (hq : q ≤ 3) (hu : u < PIO2_Q96) :
    reduceAngle (k * TWO_PI_Q96 + q * PIO2_Q96 + u : Nat) =
      (decide (2 ≤ q), (if q % 2 = 1 then PIO2_Q96 - u else u) / 2 ^ 64) := by
  have hperiod : (k * TWO_PI_Q96 + q * PIO2_Q96 + u) % TWO_PI_Q96 = q * PIO2_Q96 + u := by
    rw [add_assoc, Nat.mul_add_mod_self_right, Nat.mod_eq_of_lt]
    unfold TWO_PI_Q96
    nlinarith
  have hquadrant : (q * PIO2_Q96 + u) / PIO2_Q96 = q := by
    rw [add_comm, Nat.add_mul_div_right _ _ (by decide), Nat.div_eq_of_lt hu, zero_add]
  have hoffset : (q * PIO2_Q96 + u) % PIO2_Q96 = u := by
    rw [Nat.mul_add_mod_self_right, Nat.mod_eq_of_lt hu]
  have hsign : ¬ ((k * TWO_PI_Q96 + q * PIO2_Q96 + u : Nat) : Int) < 0 := by omega
  simp only [reduceAngle, Int.natAbs_natCast, hperiod, hquadrant, hoffset, decide_eq_false hsign]
  split_ifs <;> simp_all

/-- Every angle that is not negative has its periods, quadrants and offset. -/
theorem exists_angle_parts (Z : Nat) :
    ∃ k q u : Nat, Z = k * TWO_PI_Q96 + q * PIO2_Q96 + u ∧ q ≤ 3 ∧ u < PIO2_Q96 := by
  have hperiod := Nat.div_add_mod' Z TWO_PI_Q96
  have hquadrant := Nat.div_add_mod' (Z % TWO_PI_Q96) PIO2_Q96
  have hlt : Z % TWO_PI_Q96 < 4 * PIO2_Q96 := Nat.mod_lt _ (by decide)
  exact ⟨_, _, _, by rw [add_assoc, hquadrant, hperiod], Nat.le_of_lt_succ (Nat.div_lt_of_lt_mul (by omega)),
    Nat.mod_lt _ (by decide)⟩

/-- The sine is odd: the sign flag turns with the sign of the angle, and at zero the sine is zero. -/
theorem sinCore_neg {lut : Nat → Int} (hzero : lut 0 = 0) (Y : Int) : sinCore lut (-Y) = -sinCore lut Y := by
  rcases eq_or_ne Y 0 with rfl | hne
  · have hreduce : reduceAngle 0 = (false, 0) := by decide
    simp [sinCore, hreduce, hzero]
  · have hsign : decide (-Y < 0) = !decide (Y < 0) := by
      rw [← decide_not, decide_eq_decide]
      omega
    simp only [sinCore, reduceAngle, Int.natAbs_neg, hsign]
    by_cases hhalf : 2 ≤ Y.natAbs % TWO_PI_Q96 / PIO2_Q96 <;> by_cases hneg : Y < 0 <;> simp [hhalf, hneg]

/-- Half a period on, the sine has the other sign. -/
theorem sinCore_add_half_period (lut : Nat → Int) (Z : Nat) :
    sinCore lut (Z + 2 * PIO2_Q96 : Nat) = -sinCore lut Z := by
  obtain ⟨k, q, u, rfl, hq, hu⟩ := exists_angle_parts Z
  by_cases hhalf : 2 ≤ q
  · have hparts : k * TWO_PI_Q96 + q * PIO2_Q96 + u + 2 * PIO2_Q96 =
        (k + 1) * TWO_PI_Q96 + (q - 2) * PIO2_Q96 + u := by
      obtain ⟨p, rfl⟩ := Nat.exists_eq_add_of_le hhalf
      rw [Nat.add_sub_cancel_left]
      unfold TWO_PI_Q96
      ring
    rw [hparts, sinCore, sinCore, reduceAngle_of_parts (by omega) hu, reduceAngle_of_parts hq hu]
    have hparity : (q - 2) % 2 = q % 2 := by omega
    have hlow : ¬ 2 ≤ q - 2 := by omega
    simp [hhalf, hparity, hlow]
  · have hparts : k * TWO_PI_Q96 + q * PIO2_Q96 + u + 2 * PIO2_Q96 = k * TWO_PI_Q96 + (q + 2) * PIO2_Q96 + u := by
      ring
    rw [hparts, sinCore, sinCore, reduceAngle_of_parts (by omega) hu, reduceAngle_of_parts hq hu]
    simp [hhalf]

/-- In the first half period the sine mirrors at the quarter. -/
theorem sinCore_quarter_mirror (lut : Nat → Int) {u : Nat} (hu : u < PIO2_Q96) :
    sinCore lut (PIO2_Q96 - u : Nat) = sinCore lut (PIO2_Q96 + u : Nat) := by
  rcases Nat.eq_zero_or_pos u with rfl | hpos
  · rfl
  · have hleft := reduceAngle_of_parts (k := 0) (q := 0) (u := PIO2_Q96 - u) (by omega) (by omega)
    have hright := reduceAngle_of_parts (k := 0) (q := 1) (by omega) hu
    simp only [zero_mul, zero_add, one_mul] at hleft hright
    rw [sinCore, sinCore, hleft, hright]
    rfl

/-- The sine mirrors at the quarter: below it by the table angle, and further out by half a period. -/
theorem sinCore_quarter_even {lut : Nat → Int} (hzero : lut 0 = 0) (Y : Int) :
    sinCore lut (-Y + PIO2_Q96) = sinCore lut (Y + PIO2_Q96) := by
  have hnonneg (Z : Nat) : sinCore lut (-(Z : Int) + PIO2_Q96) = sinCore lut (Z + PIO2_Q96) := by
    rcases lt_or_ge Z PIO2_Q96 with hlt | hge
    · rw [neg_add_eq_sub, ← Nat.cast_sub hlt.le, sinCore_quarter_mirror lut hlt, Nat.cast_add, add_comm]
    · have hback : -(Z : Int) + PIO2_Q96 = -((Z - PIO2_Q96 : Nat) : Int) := by
        rw [Nat.cast_sub hge]
        ring
      have hon : (Z : Int) + PIO2_Q96 = (Z - PIO2_Q96 + 2 * PIO2_Q96 : Nat) := by
        push_cast [Nat.cast_sub hge]
        ring
      rw [hback, hon, sinCore_neg hzero, sinCore_add_half_period]
  obtain ⟨Z, rfl | rfl⟩ := Y.eq_nat_or_neg
  · exact hnonneg Z
  · rw [neg_neg, hnonneg Z]

theorem lutPrecise_zero : lutPrecise 0 = 0 := by decide

theorem lutFast_zero : lutFast 0 = 0 := by decide

theorem u64_neg (v : Int) : u64 (-v) = -u64 v := BitVec.ofInt_neg

/-- Settles O55: outside the smallest word the negation of the operand is the negation of its value, which is the
angle turned back. -/
theorem sineIsOddAndCosineIsEven : Obligations.SineIsOddAndCosineIsEven := by
  intro a b s ha
  have hvalue : (-a).toInt = -a.toInt := BitVec.toInt_neg_of_ne_intMin ha
  have hangle : (-a).toInt * 2 ^ 64 = -(a.toInt * 2 ^ 64) := by rw [hvalue, neg_mul]
  have hodd {lut : Nat → Int} (hzero : lut 0 = 0) :
      u64 (sinCore lut ((-a).toInt * 2 ^ 64)) = -u64 (sinCore lut (a.toInt * 2 ^ 64)) := by
    rw [hangle, sinCore_neg hzero, u64_neg]
  have heven {lut : Nat → Int} (hzero : lut 0 = 0) :
      sinCore lut ((-a).toInt * 2 ^ 64 + PIO2_Q96) = sinCore lut (a.toInt * 2 ^ 64 + PIO2_Q96) := by
    rw [hangle, sinCore_quarter_even hzero]
  exact ⟨_, _, rfl, exec_of_finish_value rfl (hodd lutPrecise_zero), rfl, exec_of_finish_value rfl (hodd lutFast_zero),
    congrArg (fun v => finish (.value v) s) (heven lutPrecise_zero),
    congrArg (fun v => finish (.value v) s) (heven lutFast_zero)⟩

end Sys2Proof.Machine
end

section
/-! SUPPORT. The arctangents: their ranges and symmetries, and the points at which the trigonometric commands are exact
(45_trigonometry.md R206 to R210). -/

namespace Sys2Proof.Machine

open Sys2Proof.Config

/-! ### Ranges and symmetries (R207 to R209) -/

/-- The core's angle lies in the first quadrant. -/
theorem atanCore_bounds (x y : Nat) : 0 ≤ atanCore x y ∧ atanCore x y ≤ 0x1921FB544 :=
  (vectoringAngle_atanCore x y).bounds

/-- The result of ATAN (R207). -/
def atanRaw (a : Int) : Int := if a < 0 then -atanCore (2 ^ 32) a.natAbs else atanCore (2 ^ 32) a.natAbs

theorem exec_atan_eq (a b : Word) (s : State) : exec (.atan a b) s = finish (.value (atanRaw a.toInt)) s := rfl

theorem exec_atan2_eq (a b : Word) (s : State) :
    exec (.atan2 a b) s = finish (.value (atan2Raw a.toInt b.toInt)) s := rfl

theorem abs_atanRaw_le (a : Int) : |atanRaw a| ≤ 0x1921FB544 := by
  have := atanCore_bounds (2 ^ 32) a.natAbs
  rw [atanRaw, abs_le]
  split <;> omega

/-- On the x axis the core's angle is zero. -/
theorem atanCore_ordinate_zero (x : Nat) : atanCore x 0 = 0 := if_pos rfl

/-- On the y axis the core's angle is the quarter. -/
theorem atanCore_abscissa_zero {y : Nat} (hy : y ≠ 0) : atanCore 0 y = PI_OVER_2 := (if_neg hy).trans (if_pos rfl)

theorem atanRaw_neg (a : Int) : atanRaw (-a) = -atanRaw a := by
  rcases eq_or_ne a 0 with rfl | hne
  · rfl
  · rw [atanRaw, atanRaw, Int.natAbs_neg]
    split_ifs <;> omega

/-- ATAN2 with the abscissa ONE folds nothing but the sign of the ordinate. -/
theorem atan2Raw_one (a : Int) : atan2Raw a (2 ^ 32) = atanRaw a := rfl

theorem abs_atan2Raw_le (y x : Int) : |atan2Raw y x| ≤ 0x3243F6A88 := by
  have := atanCore_bounds x.natAbs y.natAbs
  rw [atan2Raw_eq, abs_le]
  split_ifs <;> omega

/-- ACOS answers an error with the zero word or an angle of the upper half plane. -/
theorem acosRaw_res_bounds (a : Int) : 0 ≤ (acosRaw a).res.toInt ∧ (acosRaw a).res.toInt ≤ 0x3243F6A88 := by
  by_cases hin : -2 ^ 32 ≤ a ∧ a ≤ 2 ^ 32
  · obtain ⟨hlow, hhigh⟩ := hin
    have := atanCore_bounds a.natAbs (isqrt (2 ^ 64 - a * a).toNat)
    rw [acosRaw_of_inside hlow hhigh, res_value, toInt_u64 _ (by split <;> omega) (by split <;> omega)]
    split <;> omega
  · rw [acosRaw_of_outside (by omega), res_raise]
    decide

/-- Settles O59: each range is that of the core's angle after the folding, and the words hold it. -/
theorem arctangentsKeepTheirRanges : Obligations.ArctangentsKeepTheirRanges := by
  intro a b s
  have hone : (0x100000000 : Word).toInt = 2 ^ 32 := by decide
  have hatan := abs_atanRaw_le a.toInt
  have hatan2 := abs_atan2Raw_le a.toInt b.toInt
  obtain ⟨r, hr, hrv⟩ := exec_of_finish_fits (exec_atan_eq a b s) (by rw [Int.abs_eq_natAbs] at hatan; omega)
  obtain ⟨q, hq, hqv⟩ := exec_of_finish_fits (exec_atan2_eq a b s) (by rw [Int.abs_eq_natAbs] at hatan2; omega)
  refine ⟨r, q, hr, ?one, hrv ▸ hatan, fun ha => ?odd, hq, hqv ▸ hatan2, fun t hacos => ?acos⟩
  case one => rw [← hr, exec_atan2_eq, hone, atan2Raw_one, exec_atan_eq]
  case odd =>
    refine exec_of_finish_value (exec_atan_eq (-a) b s) ?_
    rw [BitVec.toInt_neg_of_ne_intMin ha, atanRaw_neg, u64_neg, ← hrv]
    exact congrArg _ (u64_s64 r)
  case acos =>
    rw [exec_acos_eq, finish_eq] at hacos
    obtain rfl := Host.Outcome.next.inj hacos
    exact acosRaw_res_bounds a.toInt

/-! ### Exact points (R210) -/

/-- SIN at the four multiples of the quarter that R210 lists. -/
theorem sin_at_quarters :
    u64 (sinRaw (0 : Word).toInt) = 0 ∧ u64 (sinRaw (0x1921FB544 : Word).toInt) = 0x100000000 ∧
    u64 (sinRaw (0x3243F6A88 : Word).toInt) = 0 ∧
    u64 (sinRaw (0x3243F6A88 + 0x1921FB544 : Word).toInt) = -0x100000000 := by
  decide

/-- COS at the same angles, and at minus the quarter. -/
theorem cos_at_quarters :
    cosRaw (0 : Word).toInt = 2 ^ 32 ∧ cosRaw (0x1921FB544 : Word).toInt = 0 ∧
    cosRaw (0x3243F6A88 : Word).toInt = -2 ^ 32 ∧
    cosRaw (0x3243F6A88 + 0x1921FB544 : Word).toInt = 0 ∧ cosRaw (-0x1921FB544 : Word).toInt = 0 := by
  decide

/-- FASTSIN at the same angles. -/
theorem fastsin_at_quarters :
    u64 (sinCore lutFast (shl (0 : Word).toInt 64)) = 0 ∧
    u64 (sinCore lutFast (shl (0x1921FB544 : Word).toInt 64)) = 0x100000000 ∧
    u64 (sinCore lutFast (shl (0x3243F6A88 : Word).toInt 64)) = 0 ∧
    u64 (sinCore lutFast (shl (0x3243F6A88 + 0x1921FB544 : Word).toInt 64)) = -0x100000000 := by
  decide

/-- FASTCOS at the same angles. -/
theorem fastcos_at_quarters :
    u64 (sinCore lutFast (shl (0 : Word).toInt 64 + PIO2_Q96)) = 0x100000000 ∧
    u64 (sinCore lutFast (shl (0x1921FB544 : Word).toInt 64 + PIO2_Q96)) = 0 ∧
    u64 (sinCore lutFast (shl (0x3243F6A88 : Word).toInt 64 + PIO2_Q96)) = -0x100000000 ∧
    u64 (sinCore lutFast (shl (0x3243F6A88 + 0x1921FB544 : Word).toInt 64 + PIO2_Q96)) = 0 := by
  decide

/-- At the ends of the domain of ACOS the ordinate is zero, so the angle lies on the x axis. -/
theorem acosRaw_of_unit {a : Int} (ha : a = 2 ^ 32 ∨ a = -2 ^ 32) :
    acosRaw a = .value (if a < 0 then PI else 0) := by
  have hroot : isqrt (2 ^ 64 - a * a).toNat = 0 := by
    have hradicand : (2 ^ 64 - a * a).toNat = 0 := by obtain rfl | rfl := ha <;> rfl
    obtain ⟨hsquare, -⟩ := isqrt_spec (r := 0) (by decide)
    rw [hradicand]
    exact mul_self_eq_zero.mp (Nat.le_zero.mp hsquare)
  rw [acosRaw_of_inside (by omega) (by omega), hroot, atanCore_ordinate_zero, sub_zero]
  rfl

/-- In the middle of the domain of ACOS the abscissa is zero and the ordinate is not. -/
theorem acosRaw_zero : acosRaw 0 = .value PI_OVER_2 := by
  have hroot : isqrt (2 ^ 64 - 0 * 0 : Int).toNat ≠ 0 := by
    intro hzero
    obtain ⟨-, hnext⟩ := isqrt_spec (r := (2 ^ 64 - 0 * 0 : Int).toNat) (by decide)
    rw [hzero] at hnext
    exact absurd hnext (by decide)
  rw [acosRaw_of_inside (by omega) (by omega), Int.natAbs_zero, atanCore_abscissa_zero hroot,
    if_neg (lt_irrefl 0)]

/-- TAN raises where the cosine is raw 0 (R206). -/
theorem exec_tan_of_cos_zero {w : Word} (b : Word) (s : State) (hcos : cosRaw w.toInt = 0) :
    exec (.tan w b) s = .next { s with phase := .done, err_q := 1, res_q := 0 } :=
  exec_of_finish_divByZero (congrArg (finish · s) (if_pos hcos))

/-- ATAN2 on the x axis: zero to the right, PI to the left. -/
theorem atan2Raw_ordinate_zero (x : Int) : atan2Raw 0 x = if x < 0 then (PI : Int) else 0 := by
  rw [atan2Raw_eq, Int.natAbs_zero, atanCore_ordinate_zero, if_neg (lt_irrefl 0), one_mul, sub_zero]
  rfl

/-- ATAN2 on the y axis: the quarter with the sign of the ordinate. -/
theorem atan2Raw_abscissa_zero {y : Int} (hy : y ≠ 0) :
    atan2Raw y 0 = if y < 0 then -(PI_OVER_2 : Int) else PI_OVER_2 := by
  rw [atan2Raw_eq, Int.natAbs_zero, atanCore_abscissa_zero (Int.natAbs_ne_zero.mpr hy), if_neg (lt_irrefl _)]
  split <;> ring

/-- Settles O60, command by command: the sines and ACOS at their listed points, TAN at the zeros of the cosine, and
ATAN and ATAN2 on the axes, where the core needs no iteration. -/
theorem exactTrigonometricIdentities : Obligations.ExactTrigonometricIdentities := by
  intro x y b s ok divByZero one pi pi2
  obtain ⟨hsin0, hsin1, hsin2, hsin3⟩ := sin_at_quarters
  obtain ⟨hcos0, hcos1, hcos2, hcos3, hcosneg⟩ := cos_at_quarters
  obtain ⟨hfs0, hfs1, hfs2, hfs3⟩ := fastsin_at_quarters
  obtain ⟨hfc0, hfc1, hfc2, hfc3⟩ := fastcos_at_quarters
  have hcos {w : Word} {v : Int} {r : Word} (hraw : cosRaw w.toInt = v) (hword : u64 v = r) :
      exec (.cos w b) s = ok r := exec_of_finish_value rfl ((congrArg u64 hraw).trans hword)
  have hacos {w : Word} {v : Int} {r : Word} (hraw : acosRaw w.toInt = .value v) (hword : u64 v = r) :
      exec (.acos w b) s = ok r := exec_of_finish_value (congrArg (finish · s) hraw) hword
  refine ⟨?sin, ?cos, ?fastsin, ?fastcos, ?atan, fun hx => ?left, fun hx => ?right, fun hy => ?up, fun hy => ?down,
    ?acos, ?tan⟩
  case sin =>
    exact ⟨exec_of_finish_value rfl hsin0, exec_of_finish_value rfl hsin1, exec_of_finish_value rfl hsin2,
      exec_of_finish_value rfl hsin3⟩
  case cos => exact ⟨hcos hcos0 rfl, hcos hcos1 rfl, hcos hcos2 rfl, hcos hcos3 rfl⟩
  case fastsin =>
    exact ⟨exec_of_finish_value rfl hfs0, exec_of_finish_value rfl hfs1, exec_of_finish_value rfl hfs2,
      exec_of_finish_value rfl hfs3⟩
  case fastcos =>
    exact ⟨exec_of_finish_value rfl hfc0, exec_of_finish_value rfl hfc1, exec_of_finish_value rfl hfc2,
      exec_of_finish_value rfl hfc3⟩
  case atan => exact exec_of_finish_value (v := 0) rfl rfl
  case left =>
    refine exec_of_finish_value (exec_atan2_eq 0 x s) ?_
    rw [show (0 : Word).toInt = 0 from rfl, atan2Raw_ordinate_zero, if_pos hx, u64_PI]
  case right =>
    refine exec_of_finish_value (exec_atan2_eq 0 x s) ?_
    rw [show (0 : Word).toInt = 0 from rfl, atan2Raw_ordinate_zero, if_neg hx.not_gt]
    rfl
  case up =>
    refine exec_of_finish_value (exec_atan2_eq y 0 s) ?_
    rw [show (0 : Word).toInt = 0 from rfl, atan2Raw_abscissa_zero hy.ne', if_neg hy.not_gt, u64_PI_OVER_2]
  case down =>
    refine exec_of_finish_value (exec_atan2_eq y 0 s) ?_
    rw [show (0 : Word).toInt = 0 from rfl, atan2Raw_abscissa_zero hy.ne, if_pos hy, u64_neg, u64_PI_OVER_2]
  case acos => exact ⟨hacos (acosRaw_of_unit (.inl rfl)) rfl, hacos acosRaw_zero u64_PI_OVER_2,
      hacos (acosRaw_of_unit (.inr rfl)) u64_PI⟩
  case tan =>
    exact ⟨exec_tan_of_cos_zero b s hcos1, exec_tan_of_cos_zero b s hcosneg, exec_tan_of_cos_zero b s hcos3⟩

end Sys2Proof.Machine
end
